-- ==== Sys2Proof/Word.lean ====
section
/-!
DEFINITION. The word types of the block and their plainest splitting (00_scope.md R10: a byte is 8
bits, a nibble is 4 bits; 30_encoding.md R60: the command word is 32 bits).
-/

namespace Sys2Proof

/-- A nibble: 4 bits (R10). -/
abbrev Nibble := BitVec 4

/-- A byte: 8 bits (R10). -/
abbrev Byte := BitVec 8

/-- A command word: 32 bits (R60). -/
abbrev Word := BitVec 32

end Sys2Proof
end

