-- ==== Sys2Proof/Machine/Checksum.lean ====
section
/-!
DEFINITION. The checksum generator and the nibble packer (42_checksum.md R140 to R143).
-/

namespace Sys2Proof.Machine

/-- `csum(v)`: the 8-bit one's complement (R141). -/
def csum (v : Byte) : Byte := ~~~v

/-- `pack(t, m)`: `(zext_8(t) << 4) | zext_8(m)` (R143). -/
def pack (t m : Nibble) : Byte := (t.setWidth 8 <<< 4) ||| m.setWidth 8

end Sys2Proof.Machine
end

