-- ==== Sys2Proof/Config.lean ====
section
/-!
DEFINITION. What one instance of the block fixes before its first transaction and never changes
(00_scope.md R8, R9; 70_reset_and_hazards.md R252). The spec leaves every value open.
-/

namespace Sys2Proof.Config

/-- The values of `P_LATENCY`, as R8 gives its type: a natural number of clock cycles, or a time that
has no bound and yet always ends. -/
inductive Latency where
  | cycles (n : Nat)
  | unboundedButFinite
deriving DecidableEq, Repr, Inhabited

/-- The implementation parameters of R8, each under the spec's own name. The functions of the model
take a `Params` as an argument (R8: "A model takes each as an argument"), so a statement over all
`Params` holds for every instance. Nothing relates the values to each other or to the listed table
entries (R9). -/
structure Params where
  /-- `P_TEMP_CODE(16)` -/
  tempCode16 : Nibble
  /-- `P_TEMP_CODE(17)` -/
  tempCode17 : Nibble
  /-- `P_TEMP_CODE(19)` -/
  tempCode19 : Nibble
  /-- `P_TEMP_CODE(20)` -/
  tempCode20 : Nibble
  /-- `P_TEMP_CODE(22)` -/
  tempCode22 : Nibble
  /-- `P_TEMP_CODE(23)` -/
  tempCode23 : Nibble
  /-- `P_TEMP_CODE(24)` -/
  tempCode24 : Nibble
  /-- `P_TEMP_CODE(25)` -/
  tempCode25 : Nibble
  /-- `P_TEMP_CODE(27)` -/
  tempCode27 : Nibble
  /-- `P_TEMP_CODE(28)` -/
  tempCode28 : Nibble
  /-- `P_TEMP_CODE(29)` -/
  tempCode29 : Nibble
  /-- `P_TEMP_CODE(30)` -/
  tempCode30 : Nibble
  /-- `P_TEMP_ABSENT`: the code of an absent temperature (R8, R127; 92 D14). -/
  tempAbsent : Nibble
  /-- `P_TEMP_UNRECOGNIZED`: the one code of every supplied temperature outside 16..30 (R8, R127;
  92 D15). DESIGN CHOICE of the spec, unsafe: log entry 11. -/
  tempUnrecognized : Nibble
  /-- `P_LATENCY`: the time from a stable command to a stable result, the same for every word of
  one instance (R8, R255). No rule reads it (R255), and neither does the model: log entry 2. -/
  latency : Latency
deriving DecidableEq, Repr, Inhabited

/-- The parameters of the instance that `step` runs: an opaque constant, so that no proof can see
its value and whatever is proved of `step` holds whatever they are (R8, R9). DESIGN CHOICE (the
form), safe: log entry 1. -/
opaque params : Params

end Sys2Proof.Config
end

