-- ==== Sys2Proof/Syntax.lean ====
section
/-!
DEFINITION. The abstract syntax: the one instruction of spec/opcode_table.json, the fields of a
command word (30_encoding.md R60), and the assembler's statements (R77).
-/

namespace Sys2Proof

/-- One constructor per row of spec/opcode_table.json: the block has one operation (R69). -/
inductive Instr where
  /-- `ENC` (40_encode.md R100), with its operands in the table's order. The value bits of an absent
  parameter and the reserved values of `FAN` and `MODE` stay as the word carries them: what they
  mean is the operation's to say (R64, R125 to R127; log entry 19). -/
  | enc (temp : Byte) (fan mode : BitVec 2) (fPresent mPresent tPresent : Bool)
deriving DecidableEq, Repr

/-- The fields of any command word, under the names of R60. -/
structure Command where
  /-- `CMD[3:0]`, R62 -/
  target : Nibble
  /-- `CMD[7:4]`, R63 -/
  action : Nibble
  /-- `CMD[8]`, R65 -/
  hasCmd : Bool
  /-- `CMD[9]`, R64 -/
  tPresent : Bool
  /-- `CMD[10]`, R64 -/
  mPresent : Bool
  /-- `CMD[11]`, R64 -/
  fPresent : Bool
  /-- `CMD[13:12]`, R66 -/
  mode : BitVec 2
  /-- `CMD[15:14]`, R67 -/
  fan : BitVec 2
  /-- `CMD[23:16]`, R68 -/
  temp : Byte
  /-- `CMD[31:24]`, R75 -/
  rsvd : Byte
deriving DecidableEq, Repr

/-- The command an `ENC` stands for: its operands, and the fixed fields of R69 and R77 ("always
TARGET = 0x1, ACTION = 0x1, HAS_CMD = 1, RSVD = 0"). -/
def Instr.command : Instr → Command
  | .enc temp fan mode fPresent mPresent tPresent =>
    { target := 0x1, action := 0x1, hasCmd := true, tPresent, mPresent, fPresent, mode, fan, temp,
      rsvd := 0 }

/-- The `<m>` of R77: `COOL`, `HEAT` or `#<r>`. -/
inductive AsmMode where
  | cool
  | heat
  | raw (r : Nat)
deriving DecidableEq, Repr

/-- The `<f>` of R77: `AUTO`, `LOW` or `#<r>`. -/
inductive AsmFan where
  | auto
  | low
  | raw (r : Nat)
deriving DecidableEq, Repr

/-- One key of an `ENC` statement (R77). The number of `temp` and of `#<r>` is the one written; its
range is a check of `WellFormed.lean`. -/
inductive AsmKey where
  | temp (n : Nat)
  | mode (m : AsmMode)
  | fan (f : AsmFan)
deriving DecidableEq, Repr

/-- One assembler statement (R77). -/
inductive AsmLine where
  /-- `ENC` and its keys, in the order written. -/
  | enc (keys : List AsmKey)
  /-- `.cmd`: the 32-bit command word as written. -/
  | cmd (w : Word)
deriving DecidableEq, Repr

end Sys2Proof
end

