-- ==== Sys2Proof/WellFormed.lean ====
section
/-!
DEFINITION. The checks on syntax: which commands keep the caller's contract and select `ENC`
(30_encoding.md R69; 70_reset_and_hazards.md R253), and which assembler statements are in the
grammar (R77).
-/

namespace Sys2Proof

/-- The four checks by which a command selects `ENC` (R69): `HAS_CMD` = 1 (R65), `RSVD` = 0 (R75),
`TARGET` = 0x1 (R62), `ACTION` = 0x1 (R63). -/
def Command.wellFormed (c : Command) : Bool :=
  c.hasCmd && c.rsvd == 0 && c.target == 0x1 && c.action == 0x1

/-- An instruction is well formed when its command selects `ENC`. The operands' types are their
fields' widths (R60), so every `Instr` is (`Sys2Proof.Instr.wellFormed_true` in Laws/Decode.lean). -/
def Instr.wellFormed (i : Instr) : Bool := i.command.wellFormed

/-- The range of one key (R77): a temperature 0..255, a raw mode or fan 0..3. -/
def AsmKey.inRange : AsmKey → Bool
  | .temp n => n ≤ 255
  | .mode (.raw r) => r ≤ 3
  | .fan (.raw r) => r ≤ 3
  | .mode .cool => true
  | .mode .heat => true
  | .fan .auto => true
  | .fan .low => true

def AsmKey.isTemp : AsmKey → Bool
  | .temp _ => true
  | .mode _ => false
  | .fan _ => false

def AsmKey.isMode : AsmKey → Bool
  | .temp _ => false
  | .mode _ => true
  | .fan _ => false

def AsmKey.isFan : AsmKey → Bool
  | .temp _ => false
  | .mode _ => false
  | .fan _ => true

/-- "Keys may appear in any order; each key at most once" (R77), each in its range. -/
def AsmLine.wellFormed : AsmLine → Bool
  | .enc keys =>
    keys.all AsmKey.inRange && keys.countP AsmKey.isTemp ≤ 1 && keys.countP AsmKey.isMode ≤ 1
      && keys.countP AsmKey.isFan ≤ 1
  | .cmd _ => true

end Sys2Proof
end

