-- ==== Sys2Proof/Decode.lean ====
section
/-!
DEFINITION. The decoder, total on command words and rejecting by name, and after it the encoder
(30_encoding.md R60, R61, R69, R75). The command word has no byte order of its own (20_memory.md
R45), so both work on the 32-bit word.
-/

namespace Sys2Proof

/-- The fields of a command word: `CMD.<FIELD>` of R61. -/
def Command.ofWord (w : Word) : Command where
  target := w.extractLsb' 0 4
  action := w.extractLsb' 4 4
  hasCmd := w.getLsbD 8
  tPresent := w.getLsbD 9
  mPresent := w.getLsbD 10
  fPresent := w.getLsbD 11
  mode := w.extractLsb' 12 2
  fan := w.extractLsb' 14 2
  temp := w.extractLsb' 16 8
  rsvd := w.extractLsb' 24 8

/-- Why a command word is not `ENC`: the first four rows of R75. -/
inductive Reject where
  /-- `HAS_CMD` = 0 (R65) -/
  | noCommand
  /-- `RSVD` is not 0 (R75) -/
  | reservedBits
  /-- `TARGET` is not 0x1 (R62) -/
  | unsupportedDevice
  /-- `ACTION` is not 0x1 (R63) -/
  | unsupportedAction
deriving DecidableEq, Repr

/-- The decoder: `ENC` with its operands (R69, R74), or the first row of R75 that the word meets, in
the order of R205. -/
def decode (w : Word) : Except Reject Instr :=
  let c := Command.ofWord w
  if c.hasCmd = false then .error .noCommand
  else if c.rsvd ≠ 0 then .error .reservedBits
  else if c.target ≠ 0x1 then .error .unsupportedDevice
  else if c.action ≠ 0x1 then .error .unsupportedAction
  else .ok (.enc c.temp c.fan c.mode c.fPresent c.mPresent c.tPresent)

/-- The command word of the given fields, the most significant field first (R60). -/
def Command.toWord (c : Command) : Word :=
  c.rsvd ++ c.temp ++ c.fan ++ c.mode ++ BitVec.ofBool c.fPresent ++ BitVec.ofBool c.mPresent
    ++ BitVec.ofBool c.tPresent ++ BitVec.ofBool c.hasCmd ++ c.action ++ c.target

/-- The encoder: the word of an `ENC` (R69: `00000000 TTTTTTTT FFMM fmt1 0001 0001`). -/
def encode (i : Instr) : Word := i.command.toWord

/-- The command word whose low `nbits` bits are those of `w`, every bit above them 0. The command
word is always 32 bits (R76). -/
def tableWord (nbits w : Nat) : Word := (BitVec.ofNat nbits w).setWidth 32

/-- What the decoder reads from a row's word of spec/opcode_table.json. -/
def decodeTableWord (nbits w : Nat) : Option Instr :=
  match decode (tableWord nbits w) with
  | .ok i => some i
  | .error _ => none

end Sys2Proof
end

