-- ==== Sys2Proof/Machine/State.lean ====
section
/-!
DEFINITION. What a transaction answers (00_scope.md R12), the state of the machine as plain data,
its reset, and the reasons a step can stop.
-/

namespace Sys2Proof.Machine

/-- The source's error taxonomy (60_exceptions.md R200). -/
inductive ErrorKind where
  /-- the target is outside scope (R201) -/
  | unsupportedDevice
  /-- the action is outside scope (R202) -/
  | unsupportedAction
  /-- a supplied value has no table entry and no default (R203) -/
  | unsupportedValue
deriving DecidableEq, Repr

/-- The field an error names (R12, 30_encoding.md R71). `temperature` belongs to the source's set and
is never produced (R71, R127). -/
inductive ErrorField where
  | target
  | action
  | temperature
  | mode
  | fan
deriving DecidableEq, Repr

/-- An error: its kind and the offending field, and nothing else (R200, R201). -/
structure TxError where
  kind : ErrorKind
  field : ErrorField
deriving DecidableEq, Repr

/-- Why a word is outside the caller's contract (R206). -/
inductive RefuseReason where
  | noCommand
  | reservedBits
deriving DecidableEq, Repr

/-- The frame: exactly 6 bytes, in the order of 10_state.md R24. -/
structure Frame where
  /-- byte[0], `HEADER_HI` -/
  headerHi : Byte
  /-- byte[1], `HEADER_LO` -/
  headerLo : Byte
  /-- byte[2], `FAN_CODE` -/
  fanCode : Byte
  /-- byte[3], `FAN_CHECK` -/
  fanCheck : Byte
  /-- byte[4], `TEMP_MODE_BYTE` -/
  tempMode : Byte
  /-- byte[5], `TEMP_MODE_CHECK` -/
  tempModeCheck : Byte
deriving DecidableEq, Repr

/-- byte[k] of a frame (R24). -/
def Frame.byte (f : Frame) : Fin 6 → Byte
  | 0 => f.headerHi
  | 1 => f.headerLo
  | 2 => f.fanCode
  | 3 => f.fanCheck
  | 4 => f.tempMode
  | 5 => f.tempModeCheck

/-- The outcome of a transaction: exactly the three kinds of R12. -/
inductive TxOutcome where
  | ok (frame : Frame) (hex : Vector Char 12)
  | err (e : TxError)
  | refused (reason : RefuseReason)
deriving DecidableEq, Repr

/-- The four result ports (10_state.md R28). -/
inductive ResultPort where
  | outKind
  | outField
  | frame
  | hex
deriving DecidableEq, Repr

/-- The width of a result port (R28). -/
def ResultPort.width : ResultPort → Nat
  | .outKind => 2
  | .outField => 3
  | .frame => 48
  | .hex => 96

/-- One thing the outside does to the block (10_state.md R22, R26; 60_exceptions.md R212). A caller's
identity is not part of it: "Callers have no identifiers the block sees". -/
inductive Input where
  /-- A caller presents `w` and holds it until the outcome (R26, R254). -/
  | command (w : Word)
  /-- A caller presents `first`, and CMD carries `later` before the outcome (R254; log entry 6). -/
  | commandChanged (first later : Word)
  /-- A caller presents `w`, and the enclosing system is reset before the outcome (R250). -/
  | commandReset (w : Word)
  /-- The enclosing system is reset between transactions (R250). -/
  | reset
  /-- A caller reads a result port (R28, R48; log entry 9). -/
  | read (p : ResultPort)
deriving DecidableEq, Repr

/-- The machine. The block has no architectural state (R20): these are its ports, and what the
outside will do to it. A result port is `none` where the spec gives it no value (R28, R30, R204,
R251). -/
structure State where
  /-- The input port `CMD[31:0]` (R27): the word last driven onto it. -/
  cmd : Word
  /-- The result port `OUT_KIND[1:0]` (R28, R70). -/
  outKind : Option (BitVec 2)
  /-- The result port `OUT_FIELD[2:0]` (R28, R71). -/
  outField : Option (BitVec 3)
  /-- The result port `FRAME[47:0]` (R28, R43). -/
  frame : Option (BitVec 48)
  /-- The result port `HEX[95:0]` (R28, R44). -/
  hex : Option (BitVec 96)
  /-- The model's own field: what the callers and the enclosing system do next, oldest first
  (DESIGN CHOICE: log entry 3). -/
  inputs : List Input
deriving DecidableEq, Repr

/-- Right after reset (R30, R250, R251): no result port holds a value. CMD is an input port without a
reset value in the spec: 0 here (DESIGN CHOICE, log entry 4). Nothing is presented yet (DESIGN
CHOICE, log entry 3). -/
def State.reset : State where
  cmd := 0
  outKind := none
  outField := none
  frame := none
  hex := none
  inputs := []

/-- Why the machine stops with a fault. All are safe: the hardware may go on, and no claim about
what it then does can be proved. No meaning of an instruction raises one. -/
inductive Fault where
  /-- Raised by reading a result port that holds no value (R30, R204, R251; 93 U10). Safe. -/
  | noValue (p : ResultPort)
  /-- Raised by reading an `OUT_FIELD` code that the block never produces (R71; 93 U12). Safe. -/
  | codeNeverProduced
  /-- Raised by a transaction whose command word changed before its outcome (R254; 93 U6). Safe. -/
  | cmdChanged
deriving DecidableEq, Repr

/-- Why a step has no meaning. All are safe: the spec says nothing of what the hardware does. -/
inductive Refusal where
  /-- Raised by `exec` for an instruction without a meaning yet; no arm answers so. Safe. -/
  | notModelled (mnemonic : String)
  /-- Raised by a transaction whose word has `HAS_CMD` = 0 (R206; 93 U7). Safe. -/
  | noCommand
  /-- Raised by a transaction whose word has `RSVD` /= 0 (R206; 93 U8). Safe. -/
  | reservedBits
deriving DecidableEq, Repr

end Sys2Proof.Machine
end

