-- ==== Sys2Proof/Machine/Operands.lean ====
section
/-!
DEFINITION. The lookup mapper: the three tables by their entries (41_lookup_mapper.md R121 to R124,
R129) and the three resolution functions (R125 to R128). Each reads only its own presence bit and
value bits (R128).
-/

namespace Sys2Proof.Machine

/-- The fan table, closed over Auto and Low (R121). -/
def fanTable : List (BitVec 2 × Byte) := [(0b00, 0xA0), (0b01, 0xE0)]

/-- The mode table, closed over Cool and Heat (R122). -/
def modeTable : List (BitVec 2 × Nibble) := [(0b00, 0x0), (0b01, 0xC)]

/-- The temperature table, 16..30 degrees: the three entries the source gives (R123) and the twelve
that are parameters of the instance (R124). -/
def tempTable (P : Config.Params) : List (Byte × Nibble) :=
  [(16, P.tempCode16), (17, P.tempCode17), (18, 0x1), (19, P.tempCode19), (20, P.tempCode20),
   (21, 0x6), (22, P.tempCode22), (23, P.tempCode23), (24, P.tempCode24), (25, P.tempCode25),
   (26, 0xD), (27, P.tempCode27), (28, P.tempCode28), (29, P.tempCode29), (30, P.tempCode30)]

/-- `resolve_fan` (R125): absent is Auto; a supplied value without an entry raises
`UnsupportedValue(fan)`. -/
def resolveFan (fPresent : Bool) (fan : BitVec 2) : Except TxError Byte :=
  if fPresent = false then .ok 0xA0
  else match fanTable.lookup fan with
    | some code => .ok code
    | none => .error ⟨.unsupportedValue, .fan⟩

/-- `resolve_mode` (R126): absent is Cool; a supplied value without an entry raises
`UnsupportedValue(mode)`. -/
def resolveMode (mPresent : Bool) (mode : BitVec 2) : Except TxError Nibble :=
  if mPresent = false then .ok 0x0
  else match modeTable.lookup mode with
    | some code => .ok code
    | none => .error ⟨.unsupportedValue, .mode⟩

/-- `resolve_temp` (R127): never raises. -/
def resolveTemp (P : Config.Params) (tPresent : Bool) (temp : Byte) : Nibble :=
  if tPresent = false then P.tempAbsent
  else match (tempTable P).lookup temp with
    | some code => code
    | none => P.tempUnrecognized

end Sys2Proof.Machine
end

