-- ==== Sys2Proof/Machine/Flags.lean ====
section
/-!
DEFINITION. The block has no flags (10_state.md R23). What stands in their place are the codes of the
outcome kind and of the offending field on the result ports (30_encoding.md R70, R71).
-/

namespace Sys2Proof.Machine

/-- `OUT_KIND` of an Ok outcome (R70). -/
def okKindCode : BitVec 2 := 0b00

/-- `OUT_KIND` of an error (R70). -/
def ErrorKind.code : ErrorKind → BitVec 2
  | .unsupportedDevice => 0b01
  | .unsupportedAction => 0b10
  | .unsupportedValue => 0b11

/-- `OUT_FIELD` of an Ok outcome: none (R71). -/
def noFieldCode : BitVec 3 := 0b000

/-- `OUT_FIELD` of an error (R71). -/
def ErrorField.code : ErrorField → BitVec 3
  | .target => 0b001
  | .action => 0b010
  | .temperature => 0b011
  | .mode => 0b100
  | .fan => 0b101

/-- The `OUT_FIELD` codes that are never produced (R71). -/
def fieldNeverProduced (v : BitVec 3) : Bool := v == 0b011 || v == 0b110 || v == 0b111

end Sys2Proof.Machine
end

