-- ==== Sys2Proof/Machine/Render.lean ====
section
/-!
DEFINITION. The rendering of a frame (40_encode.md R107, R108) and the packing of frame and rendering
on their ports (20_memory.md R42 to R44).
-/

namespace Sys2Proof.Machine

/-- The more significant nibble of a byte, `v[7:4]`. -/
def hiNibble (v : Byte) : Nibble := v.extractLsb' 4 4

/-- The less significant nibble of a byte, `v[3:0]`. -/
def loNibble (v : Byte) : Nibble := v.extractLsb' 0 4

/-- The characters `0123456789ABCDEF` (R108). -/
def hexDigits : Vector Char 16 :=
  #v['0', '1', '2', '3', '4', '5', '6', '7', '8', '9', 'A', 'B', 'C', 'D', 'E', 'F']

/-- `hexdigit(n)` (R108). -/
def hexdigit (n : Nibble) : Char := hexDigits.get n.toFin

/-- `render(b)` (R107): two characters a byte, the more significant nibble first (R42). -/
def render (b : Frame) : Vector Char 12 :=
  #v[hexdigit (hiNibble b.headerHi), hexdigit (loNibble b.headerHi),
     hexdigit (hiNibble b.headerLo), hexdigit (loNibble b.headerLo),
     hexdigit (hiNibble b.fanCode), hexdigit (loNibble b.fanCode),
     hexdigit (hiNibble b.fanCheck), hexdigit (loNibble b.fanCheck),
     hexdigit (hiNibble b.tempMode), hexdigit (loNibble b.tempMode),
     hexdigit (hiNibble b.tempModeCheck), hexdigit (loNibble b.tempModeCheck)]

/-- The 8-bit code of a character on the `HEX` port: ASCII (R108, 92 D20; log entry 16). -/
def charCode (c : Char) : Byte := BitVec.ofNat 8 c.toNat

/-- The `FRAME` port: byte[0] in the most significant byte (R43). -/
def framePort (b : Frame) : BitVec 48 :=
  b.headerHi ++ b.headerLo ++ b.fanCode ++ b.fanCheck ++ b.tempMode ++ b.tempModeCheck

/-- The `HEX` port: character 0 in the most significant byte (R44). -/
def hexPort (cs : Vector Char 12) : BitVec 96 :=
  charCode cs[0] ++ charCode cs[1] ++ charCode cs[2] ++ charCode cs[3] ++ charCode cs[4] ++ charCode cs[5]
    ++ charCode cs[6] ++ charCode cs[7] ++ charCode cs[8] ++ charCode cs[9] ++ charCode cs[10]
    ++ charCode cs[11]

/-- The frame a value of the `FRAME` port spells (R43). -/
def frameOfPort (v : BitVec 48) : Frame where
  headerHi := v.extractLsb' 40 8
  headerLo := v.extractLsb' 32 8
  fanCode := v.extractLsb' 24 8
  fanCheck := v.extractLsb' 16 8
  tempMode := v.extractLsb' 8 8
  tempModeCheck := v.extractLsb' 0 8

/-- The nibble a hexadecimal character stands for: the inverse of `hexdigit` (R108). -/
def hexValue (c : Char) : Option Nibble := (hexDigits.toList.idxOf? c).map (BitVec.ofNat 4)

/-- The byte two hexadecimal characters spell, the more significant nibble first (R42). -/
def hexByte (hi lo : Char) : Option Byte :=
  match hexValue hi, hexValue lo with
  | some h, some l => some (h ++ l)
  | _, _ => none

/-- "decoding the rendering back to bytes" (R109 (b)). -/
def unrender (cs : Vector Char 12) : Option Frame :=
  match hexByte cs[0] cs[1], hexByte cs[2] cs[3], hexByte cs[4] cs[5], hexByte cs[6] cs[7],
    hexByte cs[8] cs[9], hexByte cs[10] cs[11] with
  | some b0, some b1, some b2, some b3, some b4, some b5 => some ⟨b0, b1, b2, b3, b4, b5⟩
  | _, _, _, _, _, _ => none

end Sys2Proof.Machine
end

