-- ==== Sys2Proof/Machine/Ops.lean ====
section
/-!
DEFINITION. The named operations over the ports: driving CMD, showing a result, raising an error (the
block's only kind of exception, 60_exceptions.md R200 to R204, R209), completing a transaction,
reading a port, and fetching what the outside does next.
-/

namespace Sys2Proof.Machine

/-- The next input leaves the queue (log entry 3). -/
def State.takeInput (s : State) (rest : List Input) : State := { s with inputs := rest }

/-- A caller drives a word onto CMD (10_state.md R27). -/
def State.drive (s : State) (w : Word) : State := { s with cmd := w }

/-- The result ports of an Ok outcome (40_encode.md R100, "Ports written"). -/
def State.showOk (s : State) (frame : Frame) (hex : Vector Char 12) : State :=
  { s with outKind := some okKindCode, outField := some noFieldCode,
           frame := some (framePort frame), hex := some (hexPort hex) }

/-- RAISING AN ERROR, the one shared operation (R200): `OUT_KIND` and `OUT_FIELD` say what happened;
`FRAME` and `HEX` hold no value (R204). Nothing is saved and control goes nowhere: there is no return
(R209). -/
def State.raise (s : State) (e : TxError) : State :=
  { s with outKind := some e.kind.code, outField := some e.field.code, frame := none, hex := none }

/-- No result port holds a value (R30, R251). -/
def State.clearResults (s : State) : State :=
  { s with outKind := none, outField := none, frame := none, hex := none }

/-- The end of a transaction (R110, R12): an Ok or an error shows on the ports; a refused word has no
next state, since nothing may follow from one (R206; log entry 13). -/
def complete (o : TxOutcome) (s : State) : Host.Outcome State Fault Refusal :=
  match o with
  | .ok frame hex => .next (s.showOk frame hex)
  | .err e => .next (s.raise e)
  | .refused .noCommand => .refused .noCommand
  | .refused .reservedBits => .refused .reservedBits

/-- The outcome of a word that is not `ENC` (30_encoding.md R75; R201, R202, R206). -/
def rejectOutcome : Reject → TxOutcome
  | .noCommand => .refused .noCommand
  | .reservedBits => .refused .reservedBits
  | .unsupportedDevice => .err ⟨.unsupportedDevice, .target⟩
  | .unsupportedAction => .err ⟨.unsupportedAction, .action⟩

/-- What a port's contents read as: a fault where it holds no value (R30, R204, R251). -/
def readHeld {n : Nat} (p : ResultPort) (v : Option (BitVec n)) : Except Fault (BitVec n) :=
  match v with
  | some x => .ok x
  | none => .error (.noValue p)

/-- Reading a result port (R28). An `OUT_FIELD` code that is never produced faults (R71, 93 U12). -/
def readPort (p : ResultPort) (s : State) : Except Fault (BitVec p.width) :=
  match p with
  | .outKind => readHeld .outKind s.outKind
  | .outField =>
    match readHeld .outField s.outField with
    | .ok v => if fieldNeverProduced v then .error .codeNeverProduced else .ok v
    | .error e => .error e
  | .frame => readHeld .frame s.frame
  | .hex => readHeld .hex s.hex

/-- What fetching gives: a command to run, its word on CMD, or an input that is settled at once. -/
inductive Fetched where
  | command (s : State)
  | settled (o : Host.Outcome State Fault Refusal)
deriving Repr

/-- A caller's read: no effect on the block (20_memory.md R48), or the fault of `readPort`. -/
def readInput (p : ResultPort) (s : State) : Host.Outcome State Fault Refusal :=
  match readPort p s with
  | .ok _ => .next s
  | .error e => .fault e

/-- The next input, taken from the queue. With none the block idles (DESIGN CHOICE, log entry 8). A
word that changes before the outcome faults (R254; log entry 6). A reset leaves CMD, which the caller
drives, and abandons a transaction in progress, which then has no outcome and leaves no value (R250,
R251; log entry 7). -/
def fetch (s : State) : Fetched :=
  match s.inputs with
  | [] => .settled (.next s)
  | .command w :: rest => .command ((s.takeInput rest).drive w)
  | .commandChanged first later :: rest =>
    if first = later then .command ((s.takeInput rest).drive first)
    else .settled (.fault .cmdChanged)
  | .commandReset w :: rest => .settled (.next (((s.takeInput rest).drive w).clearResults))
  | .reset :: rest => .settled (.next ((s.takeInput rest).clearResults))
  | .read p :: rest => .settled (readInput p (s.takeInput rest))

/-- A word presented next, before all that is still to come. -/
def State.presentNext (s : State) (w : Word) : State := { s with inputs := .command w :: s.inputs }

end Sys2Proof.Machine
end

