-- ==== Sys2Proof/Machine/Encode.lean ====
section
/-!
DEFINITION. The family of the frame encoder: `ENC` (40_encode.md R100), its frame (R103 to R106), and
a whole transaction as a function of the command word (10_state.md R20).
-/

namespace Sys2Proof.Machine

/-- Byte[0] of every frame (10_state.md R24). -/
def headerHi : Byte := 0xB2

/-- Byte[1] of every frame: a constant, not a checksum (R24, 42_checksum.md R144). -/
def headerLo : Byte := 0x4D

/-- The frame of the resolved codes: steps 1, 2, 4 and 5 of R100 (R106). -/
def assembleFrame (fanCode : Byte) (tempCode modeCode : Nibble) : Frame where
  headerHi := headerHi
  headerLo := headerLo
  fanCode := fanCode
  fanCheck := csum fanCode
  tempMode := pack tempCode modeCode
  tempModeCheck := csum (pack tempCode modeCode)

/-- The body of R100 after its checks of the word: fan first, then mode (R205), and nothing is emitted
before both are resolved (R101). -/
def encOutcome (P : Config.Params) (temp : Byte) (fan mode : BitVec 2)
    (fPresent mPresent tPresent : Bool) : TxOutcome :=
  match resolveFan fPresent fan with
  | .error e => .err e
  | .ok fanCode =>
    match resolveMode mPresent mode with
    | .error e => .err e
    | .ok modeCode =>
      let b := assembleFrame fanCode (resolveTemp P tPresent temp) modeCode
      .ok b (render b)

/-- `ENC` (R100) on the running instance. -/
def execEnc (temp : Byte) (fan mode : BitVec 2) (fPresent mPresent tPresent : Bool) (s : State) :
    Host.Outcome State Fault Refusal :=
  complete (encOutcome Config.params temp fan mode fPresent mPresent tPresent) s

/-- A whole transaction as the spec's function from the command word and the parameters to an outcome
(R20, R29; the whole of R100's pseudocode). -/
def transact (P : Config.Params) (w : Word) : TxOutcome :=
  match decode w with
  | .ok (.enc temp fan mode fPresent mPresent tPresent) =>
    encOutcome P temp fan mode fPresent mPresent tPresent
  | .error r => rejectOutcome r

end Sys2Proof.Machine
end

