-- ==== Sys2Proof/Machine/Dispatch.lean ====
section
/-!
DEFINITION. From an instruction to its meaning, one arm per constructor of `Instr`.
-/

namespace Sys2Proof.Machine

def exec (i : Instr) (s : State) : Host.Outcome State Fault Refusal :=
  match i with
  | .enc temp fan mode fPresent mPresent tPresent => Sys2Proof.Machine.execEnc temp fan mode fPresent mPresent tPresent s

end Sys2Proof.Machine
end

