-- ==== Sys2Proof/Machine/Step.lean ====
section
/-!
DEFINITION. One step: one input, of which a command is one atomic transaction (10_state.md R26;
20_memory.md R46; 70_reset_and_hazards.md R255).
-/

namespace Sys2Proof.Machine

/-- The transaction of the word on CMD: the decoded instruction, or the outcome of a word that is
not `ENC` (30_encoding.md R69, R75). -/
def runCmd (s : State) : Host.Outcome State Fault Refusal :=
  match decode s.cmd with
  | .ok i => exec i s
  | .error r => complete (rejectOutcome r) s

/-- One step. -/
def step (s : State) : Host.Outcome State Fault Refusal :=
  match fetch s with
  | .command s' => runCmd s'
  | .settled o => o

/-- The state with a row's word presented next (log entry 3). -/
def State.withFetchWord (s : State) (nbits w : Nat) : State := s.presentNext (tableWord nbits w)

end Sys2Proof.Machine
end

