-- ==== Sys2Proof/Machine/Assembler.lean ====
section
/-!
DEFINITION. The assembler (30_encoding.md R77, R78): a tool outside the block that writes command
words. It fills in no default value (R78). The text form's conventions are log entry 18.
-/

namespace Sys2Proof.Machine

/-- What one key sets: its presence bit to 1 and its value bits (R77). -/
def addKey (i : Instr) (k : AsmKey) : Instr :=
  match i with
  | .enc temp fan mode fPresent mPresent tPresent =>
    match k with
    | .temp n => .enc (BitVec.ofNat 8 n) fan mode fPresent mPresent true
    | .mode .cool => .enc temp fan 0b00 fPresent true tPresent
    | .mode .heat => .enc temp fan 0b01 fPresent true tPresent
    | .mode (.raw r) => .enc temp fan (BitVec.ofNat 2 r) fPresent true tPresent
    | .fan .auto => .enc temp 0b00 mode true mPresent tPresent
    | .fan .low => .enc temp 0b01 mode true mPresent tPresent
    | .fan (.raw r) => .enc temp (BitVec.ofNat 2 r) mode true mPresent tPresent

/-- `ENC` with no key: every presence bit and value bit 0 (R77: "an omitted key"). -/
def bareEnc : Instr := .enc 0 0 0 false false false

/-- The command word of a statement, or none outside the grammar (R77). -/
def asmWord (line : AsmLine) : Option Word :=
  if line.wellFormed then
    match line with
    | .enc keys => some (encode (keys.foldl addKey bareEnc))
    | .cmd w => some w
  else none

/-- A line's tokens: what stands between spaces. -/
def asmTokens (text : List Char) : List (List Char) :=
  (text.foldr (fun c acc => if c = ' ' then [] :: acc else
    match acc with
    | [] => [[c]]
    | t :: ts => (c :: t) :: ts) [[]]).filter (fun t => !t.isEmpty)

/-- An unsigned decimal number of at least one digit. -/
def asmDecimal (t : List Char) : Option Nat :=
  if t.isEmpty then none
  else t.foldl (fun acc c =>
    match acc, ['0', '1', '2', '3', '4', '5', '6', '7', '8', '9'].idxOf? c with
    | some n, some d => some (10 * n + d)
    | _, _ => none) (some 0)

/-- Eight hexadecimal digits of either case. -/
def asmHexWord (t : List Char) : Option Word :=
  if t.length = 8 then
    t.foldl (fun acc c =>
      match acc, hexValue c.toUpper with
      | some w, some d => some (w <<< 4 ||| d.setWidth 32)
      | _, _ => none) (some (0 : Word))
  else none

/-- The `<m>` of R77. -/
def asmModeArg (t : List Char) : Option AsmMode :=
  if t = ['C', 'O', 'O', 'L'] then some .cool
  else if t = ['H', 'E', 'A', 'T'] then some .heat
  else match t with
    | '#' :: digits => (asmDecimal digits).map .raw
    | _ => none

/-- The `<f>` of R77. -/
def asmFanArg (t : List Char) : Option AsmFan :=
  if t = ['A', 'U', 'T', 'O'] then some .auto
  else if t = ['L', 'O', 'W'] then some .low
  else match t with
    | '#' :: digits => (asmDecimal digits).map .raw
    | _ => none

/-- One `key=value` token (R77). -/
def asmKey (t : List Char) : Option AsmKey :=
  if t.take 5 = ['t', 'e', 'm', 'p', '='] then (asmDecimal (t.drop 5)).map .temp
  else if t.take 5 = ['m', 'o', 'd', 'e', '='] then (asmModeArg (t.drop 5)).map .mode
  else if t.take 4 = ['f', 'a', 'n', '='] then (asmFanArg (t.drop 4)).map .fan
  else none

/-- A line of text as a statement of R77. -/
def asmParse (text : List Char) : Option AsmLine :=
  match asmTokens text with
  | [] => none
  | t :: ts =>
    if t = ['E', 'N', 'C'] then (ts.mapM asmKey).map .enc
    else if t = ['.', 'c', 'm', 'd'] then
      match ts with
      | [n] => if n.take 2 = ['0', 'x'] then (asmHexWord (n.drop 2)).map .cmd else none
      | _ => none
    else none

end Sys2Proof.Machine
end

