-- ==== Sys2Proof/Safety.lean ====
section
/-!
DEFINITION. What a good frame, a good state and a kept contract are, in the terms the statements use.
-/

namespace Sys2Proof.Machine

/-- The receiver's test of a frame, as the source states it (42_checksum.md R142): `byte[3] ==
(0xFF - byte[2])` and `byte[5] == (0xFF - byte[4])`. -/
def Frame.accepted (f : Frame) : Bool :=
  f.fanCheck == 0xFF - f.fanCode && f.tempModeCheck == 0xFF - f.tempMode

/-- What every frame of an Ok outcome is: the header (40_encode.md R103), the check bytes (R142), a fan
code of the table (R104) and a mode code of the table in the low nibble of byte[4] (R105). -/
def Frame.legal (f : Frame) : Bool :=
  f.headerHi == 0xB2 && f.headerLo == 0x4D && f.accepted
    && (f.fanCode == 0xA0 || f.fanCode == 0xE0)
    && (loNibble f.tempMode == 0x0 || loNibble f.tempMode == 0xC)

/-- The pairs of `OUT_KIND` and `OUT_FIELD` an error shows (60_exceptions.md R201 to R203). -/
def errorPair (kind : BitVec 2) (field : BitVec 3) : Bool :=
  (kind == 0b01 && field == 0b001) || (kind == 0b10 && field == 0b010)
    || (kind == 0b11 && (field == 0b101 || field == 0b100))

/-- The result ports hold nothing (R251), or one whole Ok outcome (R101), or one whole error
(R204): never a part of an outcome (20_memory.md R46). -/
def State.portsWhole (s : State) : Bool :=
  match s.outKind, s.outField, s.frame, s.hex with
  | none, none, none, none => true
  | some kind, some field, some frame, some hex =>
    kind == 0b00 && field == 0b000 && (frameOfPort frame).legal
      && hex == hexPort (render (frameOfPort frame))
  | some kind, some field, none, none => errorPair kind field
  | _, _, _, _ => false

/-- A word within the caller's contract: `HAS_CMD` = 1 and `RSVD` = 0 (70_reset_and_hazards.md R253;
60_exceptions.md R206). -/
def contractKept (w : Word) : Bool := (Command.ofWord w).hasCmd && (Command.ofWord w).rsvd == 0

/-- A safe run: `k` steps from `s` without a fault or a refusal (R206: a claim about a sequence of
transactions takes "no transaction refused" as a premise). -/
def RunsSafely (k : Nat) (s : State) : Prop := ∃ t, Host.Core.run Sys2Proof.core k s = .next t

end Sys2Proof.Machine
end

