-- ==== Sys2Proof/Certificates/Slice0/Obligations.lean ====
section
/-!
DEFINITION. The statements for the provers. Each docstring names the rule of spec/ it formalises. A
frame's check bytes are written `0xFF - v`, the source's own form (42_checksum.md R141), and not with
the model's `csum`; its fourth byte is written `temp ++ mode`, and not with the model's `pack`.
-/

open Sys2Proof Sys2Proof.Machine

/-! ### Checksum generator and nibble packer -/

/-- 42_checksum.md R141: bit i of `csum v` is NOT bit i of `v`; the three forms are equal, and the corner
cases (these two are the spec's inference, "[derived: from the pseudocode]"); the example. -/
def Obligations.CsumIsOnesComplement : Prop :=
  ∀ v : Byte, (∀ i : Fin 8, (csum v).getLsbD i = !v.getLsbD i) ∧ csum v = 0xFF - v ∧
    csum v = v ^^^ 0xFF ∧ csum (csum v) = v ∧ csum v ≠ v ∧
    csum 0x00 = 0xFF ∧ csum 0xFF = 0x00 ∧ csum 0xA0 = 0x5F

/-- 42_checksum.md R143: `result[7:4] = t`, `result[3:0] = m`, the byte is `(t << 4) | m` and `t ++ m`,
and `pack` is injective; the corner cases and the example. -/
def Obligations.PackPlacesNibbles : Prop :=
  ∀ t m : Nibble, (pack t m).extractLsb' 4 4 = t ∧ (pack t m).extractLsb' 0 4 = m ∧
    pack t m = ((t.setWidth 8 <<< 4) ||| m.setWidth 8) ∧ pack t m = t ++ m ∧
    (∀ t' m' : Nibble, pack t m = pack t' m' → t = t' ∧ m = m') ∧
    pack 0x0 0x0 = 0x00 ∧ pack 0xF 0xC = 0xFC ∧ pack 0xD 0xC = 0xDC

/-! ### Rendering and port packing -/

/-- 40_encode.md R108: `hexdigit(n)` is the n-th of the sixteen digits, and its code on the `HEX` port
is `0x30 + n` or `0x41 + (n - 10)` (the spec's decision D20, log entry 16); the example. -/
def Obligations.HexdigitIsTableEntry : Prop :=
  (∀ n : Nibble,
    ['0', '1', '2', '3', '4', '5', '6', '7', '8', '9', 'A', 'B', 'C', 'D', 'E', 'F'][n.toNat]? =
      some (hexdigit n)) ∧
  (∀ n : Nibble, charCode (hexdigit n) =
    if n.toNat ≤ 9 then 0x30 + n.setWidth 8 else 0x41 + (n.setWidth 8 - 10)) ∧
  hexPort (render ⟨0xB2, 0x4D, 0xA0, 0x5F, 0x60, 0x9F⟩) = 0x423234444130354636303946

/-- 40_encode.md R107: characters 2k and 2k+1 are the digits of byte[k]'s more and less significant
nibble, twelve in all, with no separator; the example. -/
def Obligations.RenderWritesTwoDigitsPerByte : Prop :=
  (∀ (b : Frame) (k : Fin 6), (render b).toList.length = 12 ∧
    (render b)[2 * k.val]? = some (hexdigit ((b.byte k).extractLsb' 4 4)) ∧
    (render b)[2 * k.val + 1]? = some (hexdigit ((b.byte k).extractLsb' 0 4))) ∧
  (render ⟨0xB2, 0x4D, 0xA0, 0x5F, 0x60, 0x9F⟩).toList =
    ['B', '2', '4', 'D', 'A', '0', '5', 'F', '6', '0', '9', 'F']

/-- 40_encode.md R109 (b), R107: reading the rendering back gives the frame it was made of. -/
def Obligations.RenderReadsBack : Prop := ∀ b : Frame, unrender (render b) = some b

/-- 20_memory.md R43: byte[k] occupies `FRAME[47-8k : 40-8k]`, and the port read as a hexadecimal
number spells the twelve digits of the rendering. -/
def Obligations.FramePortPlacesBytes : Prop :=
  ∀ b : Frame, (∀ k : Fin 6, (framePort b).extractLsb' (40 - 8 * k.val) 8 = b.byte k) ∧
    framePort b = b.byte 0 ++ b.byte 1 ++ b.byte 2 ++ b.byte 3 ++ b.byte 4 ++ b.byte 5 ∧
    (∀ i : Fin 12,
      (render b)[i.val]? = some (hexdigit ((framePort b).extractLsb' (44 - 4 * i.val) 4)))

/-- 20_memory.md R44: character i occupies `HEX[95-8i : 88-8i]` as one 8-bit character code. -/
def Obligations.HexPortPlacesCharacters : Prop :=
  ∀ (cs : Vector Char 12) (i : Fin 12),
    (hexPort cs).extractLsb' (88 - 8 * i.val) 8 = charCode (cs.get i)

/-! ### Lookup mapper -/

/-- 41_lookup_mapper.md R125: absent and Auto give `0xA0`, Low gives `0xE0`, a supplied reserved value
raises `UnsupportedValue(fan)`. -/
def Obligations.ResolveFanLooksUpOrDefaults : Prop :=
  (∀ fan : BitVec 2, resolveFan false fan = .ok 0xA0) ∧ resolveFan true 0b00 = .ok 0xA0 ∧
    resolveFan true 0b01 = .ok 0xE0 ∧
    resolveFan true 0b10 = .error ⟨.unsupportedValue, .fan⟩ ∧
    resolveFan true 0b11 = .error ⟨.unsupportedValue, .fan⟩

/-- 41_lookup_mapper.md R126: absent and Cool give `0x0`, Heat gives `0xC`, a supplied reserved value
raises `UnsupportedValue(mode)`. -/
def Obligations.ResolveModeLooksUpOrDefaults : Prop :=
  (∀ mode : BitVec 2, resolveMode false mode = .ok 0x0) ∧ resolveMode true 0b00 = .ok 0x0 ∧
    resolveMode true 0b01 = .ok 0xC ∧
    resolveMode true 0b10 = .error ⟨.unsupportedValue, .mode⟩ ∧
    resolveMode true 0b11 = .error ⟨.unsupportedValue, .mode⟩

/-- 41_lookup_mapper.md R127, with the entries of R123 and R124: an absent temperature gives
`P_TEMP_ABSENT`, each of 16..30 its entry or parameter, every other value `P_TEMP_UNRECOGNIZED`. -/
def Obligations.ResolveTempLooksUpOrDefaults : Prop :=
  ∀ P : Config.Params, (∀ temp : Byte, resolveTemp P false temp = P.tempAbsent) ∧
    resolveTemp P true 18 = 0x1 ∧ resolveTemp P true 21 = 0x6 ∧ resolveTemp P true 26 = 0xD ∧
    resolveTemp P true 16 = P.tempCode16 ∧ resolveTemp P true 17 = P.tempCode17 ∧
    resolveTemp P true 19 = P.tempCode19 ∧ resolveTemp P true 20 = P.tempCode20 ∧
    resolveTemp P true 22 = P.tempCode22 ∧ resolveTemp P true 23 = P.tempCode23 ∧
    resolveTemp P true 24 = P.tempCode24 ∧ resolveTemp P true 25 = P.tempCode25 ∧
    resolveTemp P true 27 = P.tempCode27 ∧ resolveTemp P true 28 = P.tempCode28 ∧
    resolveTemp P true 29 = P.tempCode29 ∧ resolveTemp P true 30 = P.tempCode30 ∧
    (∀ temp : Byte, temp.toNat < 16 ∨ 30 < temp.toNat →
      resolveTemp P true temp = P.tempUnrecognized)

/-- 41_lookup_mapper.md R128: each field defaults on its own. Changing only the temperature's operands
leaves the fan code and the mode code, changing only the mode's leaves the fan code and the
temperature code, changing only the fan's leaves byte[4]; with mode and fan both absent they are Cool
and Auto. -/
def Obligations.DefaultsAreIndependent : Prop :=
  ∀ (P : Config.Params) (temp temp' : Byte) (fan fan' mode mode' : BitVec 2)
    (fP fP' mP mP' tP tP' : Bool) (b b' : Frame) (cs cs' : Vector Char 12),
    encOutcome P temp fan mode fP mP tP = .ok b cs →
      (encOutcome P temp' fan mode fP mP tP' = .ok b' cs' →
        b'.fanCode = b.fanCode ∧ b'.tempMode.extractLsb' 0 4 = b.tempMode.extractLsb' 0 4) ∧
      (encOutcome P temp fan mode' fP mP' tP = .ok b' cs' →
        b'.fanCode = b.fanCode ∧ b'.tempMode.extractLsb' 4 4 = b.tempMode.extractLsb' 4 4) ∧
      (encOutcome P temp fan' mode fP' mP tP = .ok b' cs' → b'.tempMode = b.tempMode) ∧
      (fP = false → mP = false → b.fanCode = 0xA0 ∧ b.tempMode.extractLsb' 0 4 = 0x0)

/-- 41_lookup_mapper.md R127 and 30_encoding.md R68: no temperature raises an error, hides one, or is
the field of one. -/
def Obligations.TemperatureNeverDecidesAnError : Prop :=
  ∀ (P P' : Config.Params) (temp temp' : Byte) (fan mode : BitVec 2) (fP mP tP tP' : Bool)
    (e : TxError), encOutcome P temp fan mode fP mP tP = .err e →
      encOutcome P' temp' fan mode fP mP tP' = .err e ∧ e.kind = .unsupportedValue ∧
        e.field ≠ .temperature

/-! ### Decoder, encoder, assembler -/

/-- 30_encoding.md R61: each field is the unsigned value of its bits. -/
def Obligations.CommandFieldsAreTheirBits : Prop :=
  ∀ w : Word, (Command.ofWord w).target.toNat = w.toNat % 16 ∧
    (Command.ofWord w).action.toNat = w.toNat / 2 ^ 4 % 16 ∧
    (Command.ofWord w).hasCmd.toNat = w.toNat / 2 ^ 8 % 2 ∧
    (Command.ofWord w).tPresent.toNat = w.toNat / 2 ^ 9 % 2 ∧
    (Command.ofWord w).mPresent.toNat = w.toNat / 2 ^ 10 % 2 ∧
    (Command.ofWord w).fPresent.toNat = w.toNat / 2 ^ 11 % 2 ∧
    (Command.ofWord w).mode.toNat = w.toNat / 2 ^ 12 % 4 ∧
    (Command.ofWord w).fan.toNat = w.toNat / 2 ^ 14 % 4 ∧
    (Command.ofWord w).temp.toNat = w.toNat / 2 ^ 16 % 256 ∧
    (Command.ofWord w).rsvd.toNat = w.toNat / 2 ^ 24 % 256

/-- 30_encoding.md R60: the fields are the whole word, each once: splitting and joining are inverse. -/
def Obligations.CommandWordRoundTrip : Prop :=
  (∀ c : Command, Command.ofWord c.toWord = c) ∧ (∀ w : Word, (Command.ofWord w).toWord = w)

/-- 30_encoding.md R69: a word is `ENC`, with these bits as its operands, exactly when
`(CMD & 0xFF0001FF) == 0x00000111`; every other word has the outcome of the first four rows of R75. -/
def Obligations.DecodeSelectsEncByMask : Prop :=
  ∀ (P : Config.Params) (w : Word),
    (w &&& 0xFF0001FF = 0x00000111 →
      decode w = .ok (.enc (w.extractLsb' 16 8) (w.extractLsb' 14 2) (w.extractLsb' 12 2)
        (w.getLsbD 11) (w.getLsbD 10) (w.getLsbD 9))) ∧
    (w &&& 0xFF0001FF ≠ 0x00000111 → (∀ i : Instr, decode w ≠ .ok i) ∧
      transact P w =
        if w.getLsbD 8 = false then .refused .noCommand
        else if w.extractLsb' 24 8 ≠ 0 then .refused .reservedBits
        else if w.extractLsb' 0 4 ≠ 0x1 then .err ⟨.unsupportedDevice, .target⟩
        else .err ⟨.unsupportedAction, .action⟩)

/-- 30_encoding.md R60, R69, R74: every instruction is well formed, and decoding its word gives it
back, with every operand at every value. -/
def Obligations.DecodeOfEncode : Prop :=
  ∀ i : Instr, i.wellFormed = true ∧ decode (encode i) = .ok i

/-- 30_encoding.md R60, R69: a word that decodes is the word of what it decodes to: the decoder drops
no bit of an `ENC` word. -/
def Obligations.EncodeOfDecode : Prop := ∀ (w : Word) (i : Instr), decode w = .ok i → encode i = w

/-- Words of 95_test_vectors.md sections 1.1, 2.6 and 2.7, written by hand from 30_encoding.md R60,
decode to what they stand for. -/
def Obligations.DecodeReadsSpecWords : Prop :=
  decode 0x00150F11 = .ok (.enc 21 0b00 0b00 true true true) ∧
  decode 0x001A5F11 = .ok (.enc 26 0b01 0b01 true true true) ∧
  decode 0x00120311 = .ok (.enc 18 0b00 0b00 false false true) ∧
  decode 0x0012F311 = .ok (.enc 18 0b11 0b11 false false true) ∧
  decode 0x00004911 = .ok (.enc 0 0b01 0b00 true false false) ∧
  decode 0x00FF0311 = .ok (.enc 255 0b00 0b00 false false true) ∧
  decode 0x00000011 = .error .noCommand ∧ decode 0x01120311 = .error .reservedBits ∧
  decode 0x00003512 = .error .unsupportedDevice ∧ decode 0x0000C921 = .error .unsupportedAction

/-- 30_encoding.md R77, R78: a statement of the grammar assembles to the `ENC` with exactly its keys
present, at the values written; an omitted key has presence and value bits 0 (no default is filled
in); `.cmd` gives the word as written. -/
def Obligations.AssemblerEncodesKeys : Prop :=
  (∀ w : Word, asmWord (.cmd w) = some w) ∧
  ∀ keys : List AsmKey, (AsmLine.enc keys).wellFormed = true →
    ∃ (temp : Byte) (fan mode : BitVec 2) (fP mP tP : Bool),
      asmWord (.enc keys) = some (encode (.enc temp fan mode fP mP tP)) ∧
      (tP = true ↔ ∃ n, AsmKey.temp n ∈ keys) ∧ (mP = true ↔ ∃ m, AsmKey.mode m ∈ keys) ∧
      (fP = true ↔ ∃ f, AsmKey.fan f ∈ keys) ∧
      (∀ n, AsmKey.temp n ∈ keys → temp.toNat = n) ∧
      (AsmKey.mode .cool ∈ keys → mode = 0b00) ∧ (AsmKey.mode .heat ∈ keys → mode = 0b01) ∧
      (∀ r, AsmKey.mode (.raw r) ∈ keys → mode.toNat = r) ∧
      (AsmKey.fan .auto ∈ keys → fan = 0b00) ∧ (AsmKey.fan .low ∈ keys → fan = 0b01) ∧
      (∀ r, AsmKey.fan (.raw r) ∈ keys → fan.toNat = r) ∧
      (tP = false → temp = 0) ∧ (mP = false → mode = 0) ∧ (fP = false → fan = 0)

/-- 30_encoding.md R77: "Keys may appear in any order". -/
def Obligations.AssemblerIgnoresKeyOrder : Prop :=
  ∀ keys keys' : List AsmKey, keys.Perm keys' → asmWord (.enc keys) = asmWord (.enc keys')

/-! ### The operation and the step -/

/-- A step whose next input is a command that decodes to a well-formed instruction is `exec` of that
instruction on the state with the word on CMD and the input taken (30_encoding.md R69, 10_state.md
R26). -/
def Obligations.StepRunsDecodedInstruction : Prop :=
  ∀ (s : State) (w : Word) (rest : List Input) (i : Instr), s.inputs = .command w :: rest →
    decode w = .ok i → i.wellFormed = true →
    step s = exec i { s with cmd := w, inputs := rest }

/-- 40_encode.md R102, R103 to R107: where no present `FAN` or `MODE` is reserved, `ENC` COMPLETES
with a next state: the two codes `00` and `000`, the frame of R106 and its rendering on the ports, and
nothing else changed. -/
def Obligations.EncCompletesWithFrame : Prop :=
  ∀ (temp : Byte) (fan mode : BitVec 2) (fP mP tP : Bool) (s : State),
    (fP = true → fan = 0b00 ∨ fan = 0b01) → (mP = true → mode = 0b00 ∨ mode = 0b01) →
    let fanCode : Byte := if fP = true ∧ fan = 0b01 then 0xE0 else 0xA0
    let modeCode : Nibble := if mP = true ∧ mode = 0b01 then 0xC else 0x0
    let tempMode : Byte := resolveTemp Config.params tP temp ++ modeCode
    let b : Frame := ⟨0xB2, 0x4D, fanCode, 0xFF - fanCode, tempMode, 0xFF - tempMode⟩
    exec (.enc temp fan mode fP mP tP) s =
      .next { s with outKind := some 0b00, outField := some 0b000,
                     frame := some (framePort b), hex := some (hexPort (render b)) }

/-- 40_encode.md R100 (Exceptions), 60_exceptions.md R203, R205: a present reserved `FAN` raises
`UnsupportedValue(fan)`; a present reserved `MODE` with no such fan raises `UnsupportedValue(mode)`;
nothing else changes. -/
def Obligations.EncRaisesOnReservedValue : Prop :=
  ∀ (temp : Byte) (fan mode : BitVec 2) (fP mP tP : Bool) (s : State),
    (fP = true → fan = 0b10 ∨ fan = 0b11 →
      exec (.enc temp fan mode fP mP tP) s =
        .next { s with outKind := some 0b11, outField := some 0b101, frame := none, hex := none }) ∧
    ((fP = true → fan = 0b00 ∨ fan = 0b01) → mP = true → mode = 0b10 ∨ mode = 0b11 →
      exec (.enc temp fan mode fP mP tP) s =
        .next { s with outKind := some 0b11, outField := some 0b100, frame := none, hex := none })

/-- 30_encoding.md R75 with the order of 60_exceptions.md R205, and the whole pseudocode of
40_encode.md R100, on the bits of the word: what one step answers for every command word. -/
def Obligations.CommandFollowsOutcomeTable : Prop :=
  ∀ (s : State) (w : Word) (rest : List Input), s.inputs = .command w :: rest →
    step s =
      if w.getLsbD 8 = false then .refused .noCommand
      else if w.extractLsb' 24 8 ≠ 0 then .refused .reservedBits
      else if w.extractLsb' 0 4 ≠ 0x1 then
        .next { s with cmd := w, inputs := rest, outKind := some 0b01, outField := some 0b001,
                       frame := none, hex := none }
      else if w.extractLsb' 4 4 ≠ 0x1 then
        .next { s with cmd := w, inputs := rest, outKind := some 0b10, outField := some 0b010,
                       frame := none, hex := none }
      else if w.getLsbD 11 = true ∧ (w.extractLsb' 14 2 = 0b10 ∨ w.extractLsb' 14 2 = 0b11) then
        .next { s with cmd := w, inputs := rest, outKind := some 0b11, outField := some 0b101,
                       frame := none, hex := none }
      else if w.getLsbD 10 = true ∧ (w.extractLsb' 12 2 = 0b10 ∨ w.extractLsb' 12 2 = 0b11) then
        .next { s with cmd := w, inputs := rest, outKind := some 0b11, outField := some 0b100,
                       frame := none, hex := none }
      else
        let fanCode : Byte :=
          if w.getLsbD 11 = true ∧ w.extractLsb' 14 2 = 0b01 then 0xE0 else 0xA0
        let modeCode : Nibble :=
          if w.getLsbD 10 = true ∧ w.extractLsb' 12 2 = 0b01 then 0xC else 0x0
        let tempMode : Byte :=
          resolveTemp Config.params (w.getLsbD 9) (w.extractLsb' 16 8) ++ modeCode
        let b : Frame := ⟨0xB2, 0x4D, fanCode, 0xFF - fanCode, tempMode, 0xFF - tempMode⟩
        .next { s with cmd := w, inputs := rest, outKind := some 0b00, outField := some 0b000,
                       frame := some (framePort b), hex := some (hexPort (render b)) }

/-- 60_exceptions.md R201: `TARGET` /= 1 in a word with `HAS_CMD` = 1 and `RSVD` = 0. -/
def Obligations.UnsupportedDeviceRaised : Prop :=
  ∀ (s : State) (w : Word) (rest : List Input), s.inputs = .command w :: rest →
    w.getLsbD 8 = true → w.extractLsb' 24 8 = 0 → w.extractLsb' 0 4 ≠ 0x1 →
    step s = .next { s with cmd := w, inputs := rest, outKind := some 0b01, outField := some 0b001,
                            frame := none, hex := none }

/-- 60_exceptions.md R202: `TARGET` = 1 and `ACTION` /= 1. -/
def Obligations.UnsupportedActionRaised : Prop :=
  ∀ (s : State) (w : Word) (rest : List Input), s.inputs = .command w :: rest →
    w.getLsbD 8 = true → w.extractLsb' 24 8 = 0 → w.extractLsb' 0 4 = 0x1 →
    w.extractLsb' 4 4 ≠ 0x1 →
    step s = .next { s with cmd := w, inputs := rest, outKind := some 0b10, outField := some 0b010,
                            frame := none, hex := none }

/-- 60_exceptions.md R203 (with R205 where both values are reserved): target and action in scope and a
present reserved `FAN`, or a present reserved `MODE`; no temperature is an error. -/
def Obligations.UnsupportedValueRaised : Prop :=
  ∀ (s : State) (w : Word) (rest : List Input), s.inputs = .command w :: rest →
    w &&& 0xFF0001FF = 0x00000111 →
    (w.getLsbD 11 = true → w.extractLsb' 14 2 = 0b10 ∨ w.extractLsb' 14 2 = 0b11 →
      step s = .next { s with cmd := w, inputs := rest, outKind := some 0b11,
                              outField := some 0b101, frame := none, hex := none }) ∧
    (¬ (w.getLsbD 11 = true ∧ (w.extractLsb' 14 2 = 0b10 ∨ w.extractLsb' 14 2 = 0b11)) →
      w.getLsbD 10 = true → w.extractLsb' 12 2 = 0b10 ∨ w.extractLsb' 12 2 = 0b11 →
      step s = .next { s with cmd := w, inputs := rest, outKind := some 0b11,
                              outField := some 0b100, frame := none, hex := none }) ∧
    (¬ (w.getLsbD 11 = true ∧ (w.extractLsb' 14 2 = 0b10 ∨ w.extractLsb' 14 2 = 0b11)) →
      ¬ (w.getLsbD 10 = true ∧ (w.extractLsb' 12 2 = 0b10 ∨ w.extractLsb' 12 2 = 0b11)) →
      ∃ s', step s = .next s' ∧ s'.outKind = some 0b00)

/-- 60_exceptions.md R206: a word with `HAS_CMD` = 0 or `RSVD` /= 0 is refused, by that name. -/
def Obligations.WordsOutsideContractRefused : Prop :=
  ∀ (s : State) (w : Word) (rest : List Input), s.inputs = .command w :: rest →
    (w.getLsbD 8 = false → step s = .refused .noCommand) ∧
    (w.getLsbD 8 = true → w.extractLsb' 24 8 ≠ 0 → step s = .refused .reservedBits)

/-- 60_exceptions.md R204: after an error `FRAME` and `HEX` hold no value, and reading them, as an
operation and as the next input, faults. -/
def Obligations.ErrorCarriesNoFrame : Prop :=
  ∀ (s : State) (w : Word) (rest : List Input) (e : TxError), s.inputs = .command w :: rest →
    transact Config.params w = .err e →
    ∃ s', step s = .next s' ∧ s'.outKind = some e.kind.code ∧ s'.outField = some e.field.code ∧
      s'.frame = none ∧ s'.hex = none ∧
      readPort .frame s' = .error (.noValue .frame) ∧ readPort .hex s' = .error (.noValue .hex) ∧
      (∀ rest', rest = .read .frame :: rest' → step s' = .fault (.noValue .frame)) ∧
      (∀ rest', rest = .read .hex :: rest' → step s' = .fault (.noValue .hex))

/-- 10_state.md R28: after an Ok outcome all four result ports hold a value and can be read. -/
def Obligations.OkPortsAllReadable : Prop :=
  ∀ (s : State) (w : Word) (rest : List Input) (b : Frame) (cs : Vector Char 12),
    s.inputs = .command w :: rest → transact Config.params w = .ok b cs →
    ∃ s', step s = .next s' ∧ readPort .outKind s' = .ok 0b00 ∧ readPort .outField s' = .ok 0b000 ∧
      readPort .frame s' = .ok (framePort b) ∧ readPort .hex s' = .ok (hexPort cs)

/-- 30_encoding.md R70: what `OUT_KIND` shows after a transaction: `00` for Ok, with `FRAME` and `HEX`
holding the frame, and `01`, `10`, `11` for the three errors. -/
def Obligations.OutKindShowsOutcome : Prop :=
  ∀ (s : State) (w : Word) (rest : List Input), s.inputs = .command w :: rest →
    (∀ b cs, transact Config.params w = .ok b cs → ∃ s', step s = .next s' ∧
      s'.outKind = some 0b00 ∧ s'.frame = some (framePort b) ∧ s'.hex = some (hexPort cs)) ∧
    (∀ field, transact Config.params w = .err ⟨.unsupportedDevice, field⟩ →
      ∃ s', step s = .next s' ∧ s'.outKind = some 0b01) ∧
    (∀ field, transact Config.params w = .err ⟨.unsupportedAction, field⟩ →
      ∃ s', step s = .next s' ∧ s'.outKind = some 0b10) ∧
    (∀ field, transact Config.params w = .err ⟨.unsupportedValue, field⟩ →
      ∃ s', step s = .next s' ∧ s'.outKind = some 0b11)

/-- 40_encode.md R101, 20_memory.md R46: a transaction that completes shows a whole frame with its
rendering, or an error and no byte of a frame; a refused one shows nothing, since it has no next
state. -/
def Obligations.TransactionAllOrNothing : Prop :=
  ∀ (s s' : State) (w : Word) (rest : List Input), s.inputs = .command w :: rest →
    step s = .next s' →
    (∃ b, b.legal = true ∧ s'.outKind = some 0b00 ∧ s'.outField = some 0b000 ∧
      s'.frame = some (framePort b) ∧ s'.hex = some (hexPort (render b))) ∨
    (∃ kind field, errorPair kind field = true ∧ s'.outKind = some kind ∧
      s'.outField = some field ∧ s'.frame = none ∧ s'.hex = none)

/-- 40_encode.md R103: every Ok outcome begins `B2 4D`, and its rendering `B24D`. -/
def Obligations.EveryFrameStartsWithHeader : Prop :=
  (∀ (P : Config.Params) (w : Word) (b : Frame) (cs : Vector Char 12), transact P w = .ok b cs →
    b.byte 0 = 0xB2 ∧ b.byte 1 = 0x4D ∧ cs.toList.take 4 = ['B', '2', '4', 'D']) ∧
  (∀ (s s' : State) (w : Word) (rest : List Input), s.inputs = .command w :: rest →
    step s = .next s' → s'.outKind = some 0b00 →
    ∃ v h, s'.frame = some v ∧ s'.hex = some h ∧ v.extractLsb' 32 16 = 0xB24D ∧
      h.extractLsb' 64 32 = 0x42323444)

/-- 42_checksum.md R142: `v ^ csum(v)` is `0xFF` for every v, and every frame, whatever the parameters
and whatever was defaulted, passes the receiver's test. -/
def Obligations.EveryFramePassesCheck : Prop :=
  (∀ v : Byte, v ^^^ csum v = 0xFF) ∧
  (∀ (P : Config.Params) (w : Word) (b : Frame) (cs : Vector Char 12), transact P w = .ok b cs →
    b.byte 2 ^^^ b.byte 3 = 0xFF ∧ b.byte 4 ^^^ b.byte 5 = 0xFF ∧
      b.byte 3 = 0xFF - b.byte 2 ∧ b.byte 5 = 0xFF - b.byte 4)

/-- 40_encode.md R109 (a) to (c), (e): every rendering is twelve digits of `0-9A-F`, begins `B24D`,
and reads back to a frame that passes the receiver's test; omitting mode or fan is no exception. -/
def Obligations.RenderingPassesSourceProperties : Prop :=
  ∀ (P : Config.Params) (w : Word) (b : Frame) (cs : Vector Char 12), transact P w = .ok b cs →
    cs.toList.length = 12 ∧
    (∀ ch ∈ cs.toList, ch ∈
      ['0', '1', '2', '3', '4', '5', '6', '7', '8', '9', 'A', 'B', 'C', 'D', 'E', 'F']) ∧
    cs.toList.take 4 = ['B', '2', '4', 'D'] ∧
    (∃ f, unrender cs = some f ∧ f = b ∧ f.byte 3 = 0xFF - f.byte 2 ∧ f.byte 5 = 0xFF - f.byte 4)

/-- 40_encode.md R104, R105: the fan pair is `A0 5F` (Auto or absent) or `E0 1F` (Low); the low nibble
of byte[4] is `0x0` (Cool or absent) or `0xC` (Heat), its high nibble the temperature code. -/
def Obligations.FrameBytesFollowTables : Prop :=
  ∀ (P : Config.Params) (w : Word) (b : Frame) (cs : Vector Char 12), transact P w = .ok b cs →
    (if w.getLsbD 11 = true ∧ w.extractLsb' 14 2 = 0b01 then b.byte 2 = 0xE0 ∧ b.byte 3 = 0x1F
      else b.byte 2 = 0xA0 ∧ b.byte 3 = 0x5F) ∧
    (b.byte 4).extractLsb' 0 4 =
      (if w.getLsbD 10 = true ∧ w.extractLsb' 12 2 = 0b01 then 0xC else 0x0) ∧
    (b.byte 4).extractLsb' 4 4 = resolveTemp P (w.getLsbD 9) (w.extractLsb' 16 8)

/-- 40_encode.md R102: the outcome is Ok exactly for the words that select `ENC` and carry no present
reserved value, whatever the parameters and whatever `TEMP` holds. -/
def Obligations.OkExactlyForValidWords : Prop :=
  ∀ (P : Config.Params) (w : Word), (∃ b cs, transact P w = .ok b cs) ↔
    w &&& 0xFF0001FF = 0x00000111 ∧
    (w.getLsbD 11 = true → w.extractLsb' 14 2 = 0b00 ∨ w.extractLsb' 14 2 = 0b01) ∧
    (w.getLsbD 10 = true → w.extractLsb' 12 2 = 0b00 ∨ w.extractLsb' 12 2 = 0b01)

/-- 30_encoding.md R64: the value bits of an absent parameter affect no outcome. The two words agree
on every bit but those of a field that is absent. -/
def Obligations.AbsentValueBitsIgnored : Prop :=
  ∀ (P : Config.Params) (w w' : Word),
    (∀ i, i < 12 → w'.getLsbD i = w.getLsbD i) →
    (w.getLsbD 10 = true → w'.extractLsb' 12 2 = w.extractLsb' 12 2) →
    (w.getLsbD 11 = true → w'.extractLsb' 14 2 = w.extractLsb' 14 2) →
    (w.getLsbD 9 = true → w'.extractLsb' 16 8 = w.extractLsb' 16 8) →
    w'.extractLsb' 24 8 = w.extractLsb' 24 8 →
    transact P w' = transact P w

/-- 10_state.md R29: two transactions with equal command words give equal outcomes, whatever state
came before: equal results on every port, or the same refusal, and never a fault. -/
def Obligations.EqualWordsEqualOutcomes : Prop :=
  ∀ (s t : State) (w : Word) (rest rest' : List Input), s.inputs = .command w :: rest →
    t.inputs = .command w :: rest' →
    (∃ s' t', step s = .next s' ∧ step t = .next t' ∧ s'.outKind = t'.outKind ∧
      s'.outField = t'.outField ∧ s'.frame = t'.frame ∧ s'.hex = t'.hex) ∨
    (∃ r, step s = .refused r ∧ step t = .refused r)

/-- 60_exceptions.md R207, 10_state.md R29: presenting the same word again, at once, gives the same
outcome on every port. -/
def Obligations.RetryChangesNothing : Prop :=
  ∀ (s s' : State) (w : Word) (rest : List Input),
    s.inputs = .command w :: .command w :: rest → step s = .next s' →
    step s' = .next { s' with inputs := rest }

/-- 20_memory.md R49, 70_reset_and_hazards.md R256: in a run of transactions, back to back, none of
them refused, the k-th step shows the outcome of the k-th word alone, whatever came before it. -/
def Obligations.EveryTransactionAnswersItsOwnWord : Prop :=
  ∀ (ws : List Word) (k : Nat) (w : Word) (s : State) (rest : List Input),
    s.inputs = ws.map .command ++ rest → ws[k]? = some w →
    (∀ v ∈ ws.take (k + 1), contractKept v = true) →
    ∃ o, transact Config.params w = o ∧ (∀ r, o ≠ .refused r) ∧
      Host.Core.run Sys2Proof.core (k + 1) s =
        complete o { s with cmd := w, inputs := (ws.drop (k + 1)).map .command ++ rest }

/-- 70_reset_and_hazards.md R253, 60_exceptions.md R206: callers that keep their contract never see a
run stop, however many steps are taken. The steps after the last word idle, which is the model's own
choice (log entry 8, DESIGN CHOICE, unsafe). -/
def Obligations.KeptContractRunsSafely : Prop :=
  ∀ (ws : List Word) (s : State), s.inputs = ws.map .command →
    (∀ w ∈ ws, contractKept w = true) → ∀ k : Nat, RunsSafely k s

/-- Only `ENC` makes a frame (30_encoding.md R69, R75, R79): a step that leaves a frame on the port
that was not there took a word that selects `ENC` and carries no present reserved value. -/
def Obligations.OnlyEncMakesFrames : Prop :=
  ∀ (s s' : State) (v : BitVec 48), step s = .next s' → s'.frame = some v → s.frame ≠ some v →
    ∃ (w : Word) (rest : List Input),
      (s.inputs = .command w :: rest ∨ s.inputs = .commandChanged w w :: rest) ∧
      w &&& 0xFF0001FF = 0x00000111 ∧
      (w.getLsbD 11 = true → w.extractLsb' 14 2 = 0b00 ∨ w.extractLsb' 14 2 = 0b01) ∧
      (w.getLsbD 10 = true → w.extractLsb' 12 2 = 0b00 ∨ w.extractLsb' 12 2 = 0b01)

/-- 30_encoding.md R71: the codes of `OUT_FIELD`; every transaction that completes shows one that is
produced, `000` exactly on Ok. The last clause, that reading a code that is never produced faults, is
not in R71: it follows 93_implementation_defined.md U12 in the model's own form of a read (log entry
9, DESIGN CHOICE). -/
def Obligations.OutFieldCodes : Prop :=
  (noFieldCode = 0b000 ∧ ErrorField.target.code = 0b001 ∧ ErrorField.action.code = 0b010 ∧
    ErrorField.temperature.code = 0b011 ∧ ErrorField.mode.code = 0b100 ∧
    ErrorField.fan.code = 0b101) ∧
  (∀ (s s' : State) (w : Word) (rest : List Input), s.inputs = .command w :: rest →
    step s = .next s' →
    ∃ v, s'.outField = some v ∧ v ≠ 0b011 ∧ v ≠ 0b110 ∧ v ≠ 0b111 ∧
      (v = 0b000 ↔ s'.outKind = some 0b00) ∧ readPort .outField s' = .ok v) ∧
  (∀ (s : State) (v : BitVec 3), s.outField = some v → v = 0b011 ∨ v = 0b110 ∨ v = 0b111 →
    readPort .outField s = .error .codeNeverProduced)

/-! ### Instance parameters -/

/-- 70_reset_and_hazards.md R252: a command whose temperature is 18, 21 or 26 has the same outcome on
every instance; so has every word that ends in an error or a refusal. -/
def Obligations.ListedTemperaturesDetermined : Prop :=
  ∀ (P P' : Config.Params) (w : Word),
    (w.getLsbD 9 = true → w.extractLsb' 16 8 = 18 ∨ w.extractLsb' 16 8 = 21 ∨
      w.extractLsb' 16 8 = 26 → transact P w = transact P' w) ∧
    ((∀ b cs, transact P w ≠ .ok b cs) → transact P' w = transact P w)

/-- 70_reset_and_hazards.md R255: no outcome depends on `P_LATENCY`, whether it is a number of cycles
or unbounded-but-finite (00_scope.md R8). -/
def Obligations.LatencyNeverRead : Prop :=
  ∀ (P : Config.Params) (l : Config.Latency) (w : Word),
    transact { P with latency := l } w = transact P w

/-- 95_test_vectors.md section 2.5 (and 1.1): the twelve fully specified words, on every instance, with
the digits of their renderings. -/
def Obligations.SpecWordsGiveSpecFrames : Prop :=
  ∀ (P : Config.Params), ∀ x ∈ ([(0x00120F11, 0xB24DA05F10EF), (0x00124F11, 0xB24DE01F10EF),
      (0x00121F11, 0xB24DA05F1CE3), (0x00125F11, 0xB24DE01F1CE3), (0x00150F11, 0xB24DA05F609F),
      (0x00154F11, 0xB24DE01F609F), (0x00151F11, 0xB24DA05F6C93), (0x00155F11, 0xB24DE01F6C93),
      (0x001A0F11, 0xB24DA05FD02F), (0x001A4F11, 0xB24DE01FD02F), (0x001A1F11, 0xB24DA05FDC23),
      (0x001A5F11, 0xB24DE01FDC23)] : List (Word × BitVec 48)),
    ∃ b, transact P x.1 = .ok b (render b) ∧ framePort b = x.2

/-! ### Reset, reads, hazards -/

/-- 70_reset_and_hazards.md R251: after reset no result port holds a value and reading one faults; a
reset, and a reset during a transaction, leave none; and no value appears before a transaction
completes. That resets and reads are inputs of the model, and that a reset leaves CMD (the word just
driven, for one during a transaction) and the remaining inputs as they are, is the model's own choice
and not in R251 (log entries 7 and 9, DESIGN CHOICE; entry 7 is unsafe). -/
def Obligations.ResetLeavesNoResult : Prop :=
  (∀ p : ResultPort, readPort p State.reset = .error (.noValue p)) ∧
  (∀ (s : State) (rest : List Input), s.inputs = .reset :: rest →
    step s = .next { s with inputs := rest, outKind := none, outField := none, frame := none,
                            hex := none }) ∧
  (∀ (s : State) (w : Word) (rest : List Input), s.inputs = .commandReset w :: rest →
    step s = .next { s with cmd := w, inputs := rest, outKind := none, outField := none,
                            frame := none, hex := none }) ∧
  (∀ s : State, s.outKind = none → s.outField = none → s.frame = none → s.hex = none →
    (∀ p rest, s.inputs = .read p :: rest → step s = .fault (.noValue p)) ∧
    (∀ s', step s = .next s' → (∀ w rest, s.inputs ≠ .command w :: rest) →
      (∀ w rest, s.inputs ≠ .commandChanged w w :: rest) →
      s'.outKind = none ∧ s'.outField = none ∧ s'.frame = none ∧ s'.hex = none))

/-- 20_memory.md R48 (reads as inputs are the model's form, log entry 9): reading a result port changes
nothing but the input taken, or faults as `readPort` says. -/
def Obligations.ReadHasNoEffect : Prop :=
  ∀ (s : State) (p : ResultPort) (rest : List Input), s.inputs = .read p :: rest →
    (∀ v, readPort p s = .ok v → step s = .next { s with inputs := rest }) ∧
    (∀ e, readPort p s = .error e → step s = .fault e)

/-- 70_reset_and_hazards.md R254 (a changing word as an input is the model's form, log entry 6): a word
that changes during a transaction faults it; one that comes back the same is an ordinary
transaction. -/
def Obligations.ChangingCommandFaults : Prop :=
  ∀ (s : State) (first later : Word) (rest : List Input),
    s.inputs = .commandChanged first later :: rest →
    (first ≠ later → step s = .fault .cmdChanged) ∧
    (first = later → step s = step { s with inputs := .command first :: rest })

/-- The model's own choice (log entry 8; 20_memory.md R48): with nothing presented, a step changes
nothing. -/
def Obligations.IdleChangesNothing : Prop := ∀ s : State, s.inputs = [] → step s = .next s

/-- The result ports of the reset state hold nothing, so they hold no part of an outcome
(10_state.md R30). -/
def Obligations.PortsWholeAtReset : Prop :=
  State.reset.portsWhole = true ∧ State.reset.outKind = none ∧ State.reset.outField = none ∧
    State.reset.frame = none ∧ State.reset.hex = none

/-- 20_memory.md R46, 40_encode.md R101, 60_exceptions.md R204: every step keeps the result ports
holding nothing, a whole Ok outcome with a legal frame and its own rendering, or a whole error. -/
def Obligations.StepKeepsPortsWhole : Prop :=
  ∀ s s' : State, s.portsWhole = true → step s = .next s' → s'.portsWhole = true
end

