-- ==== Sys2Proof/Laws/Assembler.lean ====
section
/-!
SUPPORT. What folding the keys of a statement does to one field of the instruction.
-/

namespace Sys2Proof.Machine

/-- A field that no key of the list sets keeps its value. -/
theorem foldl_addKey_untouched {α : Type} (get : Instr → α) (set : AsmKey → Option α)
    (h : ∀ i k, get (addKey i k) = (set k).getD (get i)) (keys : List AsmKey)
    (hn : ∀ k ∈ keys, set k = none) (i : Instr) : get (keys.foldl addKey i) = get i := by
  induction keys generalizing i with
  | nil => rfl
  | cons k ks ih =>
    rw [List.foldl_cons, ih (fun k' hk' => hn k' (List.mem_cons_of_mem _ hk')), h,
      hn k List.mem_cons_self, Option.getD_none]

/-- A field that exactly one key of the list sets has that key's value. -/
theorem foldl_addKey_set {α : Type} (get : Instr → α) (set : AsmKey → Option α)
    (h : ∀ i k, get (addKey i k) = (set k).getD (get i)) (keys : List AsmKey)
    (hc : keys.countP (fun k => (set k).isSome) ≤ 1) (k : AsmKey) (hk : k ∈ keys) (v : α)
    (hv : set k = some v) (i : Instr) : get (keys.foldl addKey i) = v := by
  induction keys generalizing i with
  | nil => cases hk
  | cons k' ks ih =>
    rw [List.foldl_cons]
    rw [List.countP_cons] at hc
    rcases List.mem_cons.1 hk with rfl | hk'
    · rw [if_pos (by simp [hv])] at hc
      have hz : ks.countP (fun k => (set k).isSome) = 0 := by omega
      rw [List.countP_eq_zero] at hz
      rw [foldl_addKey_untouched get set h ks (fun k' hk' => by simpa using hz k' hk'), h, hv,
        Option.getD_some]
    · exact ih (by omega) hk' _

end Sys2Proof.Machine
end

