-- ==== Sys2Proof/Laws/Decode.lean ====
section
/-!
SUPPORT. What the decoder can answer.
-/

namespace Sys2Proof

/-- Every instruction selects `ENC`: its operands are typed to their fields' widths (R60). -/
theorem Instr.wellFormed_true (i : Instr) : i.wellFormed = true := by
  cases i; simp [Instr.wellFormed, Command.wellFormed, Instr.command]

/-- The decoder rejects in the order of R75 and otherwise reads the six operands (R69). -/
theorem decode_cases (w : Word) :
    ((Command.ofWord w).hasCmd = false ∧ decode w = .error .noCommand) ∨
    ((Command.ofWord w).hasCmd = true ∧ (Command.ofWord w).rsvd ≠ 0 ∧
      decode w = .error .reservedBits) ∨
    ((Command.ofWord w).hasCmd = true ∧ (Command.ofWord w).rsvd = 0 ∧
      (Command.ofWord w).target ≠ 0x1 ∧ decode w = .error .unsupportedDevice) ∨
    ((Command.ofWord w).hasCmd = true ∧ (Command.ofWord w).rsvd = 0 ∧
      (Command.ofWord w).target = 0x1 ∧ (Command.ofWord w).action ≠ 0x1 ∧
      decode w = .error .unsupportedAction) ∨
    ((Command.ofWord w).wellFormed = true ∧
      decode w = .ok (.enc (Command.ofWord w).temp (Command.ofWord w).fan (Command.ofWord w).mode
        (Command.ofWord w).fPresent (Command.ofWord w).mPresent (Command.ofWord w).tPresent)) := by
  unfold decode
  by_cases h1 : (Command.ofWord w).hasCmd = false
  · exact .inl ⟨h1, if_pos h1⟩
  have h1' := Bool.eq_true_of_not_eq_false h1
  by_cases h2 : (Command.ofWord w).rsvd = 0
  case neg => exact .inr (.inl ⟨h1', h2, by simp only [h1', Bool.true_eq_false, if_false, if_pos h2]⟩)
  by_cases h3 : (Command.ofWord w).target = 0x1
  case neg =>
    exact .inr (.inr (.inl ⟨h1', h2, h3, by
      simp only [h1', h2, Bool.true_eq_false, ne_eq, not_true, if_false, if_pos h3]⟩))
  by_cases h4 : (Command.ofWord w).action = 0x1
  case neg =>
    exact .inr (.inr (.inr (.inl ⟨h1', h2, h3, h4, by
      simp only [h1', h2, h3, Bool.true_eq_false, ne_eq, not_true, if_false, if_pos h4]⟩)))
  exact .inr (.inr (.inr (.inr ⟨by simp only [Command.wellFormed, h1', h2, h3, h4]; rfl,
    by simp only [h1', h2, h3, h4, Bool.true_eq_false, ne_eq, not_true, if_false]⟩)))

end Sys2Proof
end

