-- ==== Sys2Proof/Laws/Operands.lean ====
section
/-!
SUPPORT. What each function of the mapper, and the operation over them, can answer.
-/

namespace Sys2Proof.Machine

/-- All that `resolve_fan` can answer (R125). -/
theorem resolveFan_cases (fPresent : Bool) (fan : BitVec 2) :
    ((fPresent = false ∨ fan = 0b00) ∧ resolveFan fPresent fan = .ok 0xA0) ∨
    (fPresent = true ∧ fan = 0b01 ∧ resolveFan fPresent fan = .ok 0xE0) ∨
    (fPresent = true ∧ (fan = 0b10 ∨ fan = 0b11) ∧
      resolveFan fPresent fan = .error ⟨.unsupportedValue, .fan⟩) := by
  revert fPresent fan; decide

/-- All that `resolve_mode` can answer (R126). -/
theorem resolveMode_cases (mPresent : Bool) (mode : BitVec 2) :
    ((mPresent = false ∨ mode = 0b00) ∧ resolveMode mPresent mode = .ok 0x0) ∨
    (mPresent = true ∧ mode = 0b01 ∧ resolveMode mPresent mode = .ok 0xC) ∨
    (mPresent = true ∧ (mode = 0b10 ∨ mode = 0b11) ∧
      resolveMode mPresent mode = .error ⟨.unsupportedValue, .mode⟩) := by
  revert mPresent mode; decide

/-- All that the body of `ENC` can answer (R100): the fan's error, the mode's error, or a frame of the
resolved codes and its rendering. -/
theorem encOutcome_cases (P : Config.Params) (temp : Byte) (fan mode : BitVec 2)
    (fPresent mPresent tPresent : Bool) :
    (fPresent = true ∧ (fan = 0b10 ∨ fan = 0b11) ∧
      encOutcome P temp fan mode fPresent mPresent tPresent =
        .err ⟨.unsupportedValue, .fan⟩) ∨
    ((∃ fanCode, resolveFan fPresent fan = .ok fanCode) ∧
      mPresent = true ∧ (mode = 0b10 ∨ mode = 0b11) ∧
      encOutcome P temp fan mode fPresent mPresent tPresent =
        .err ⟨.unsupportedValue, .mode⟩) ∨
    (∃ fanCode modeCode,
      resolveFan fPresent fan = .ok fanCode ∧ (fanCode = 0xA0 ∨ fanCode = 0xE0) ∧
      resolveMode mPresent mode = .ok modeCode ∧ (modeCode = 0x0 ∨ modeCode = 0xC) ∧
      encOutcome P temp fan mode fPresent mPresent tPresent =
        .ok (assembleFrame fanCode (resolveTemp P tPresent temp) modeCode)
          (render (assembleFrame fanCode (resolveTemp P tPresent temp) modeCode))) := by
  obtain ⟨-, hf⟩ | ⟨-, -, hf⟩ | ⟨hp, hv, hf⟩ := resolveFan_cases fPresent fan
  case inr.inr => exact .inl ⟨hp, hv, by simp [encOutcome, hf]⟩
  all_goals
    obtain ⟨-, hm⟩ | ⟨-, -, hm⟩ | ⟨hp, hv, hm⟩ := resolveMode_cases mPresent mode
    case inr.inr => exact .inr (.inl ⟨⟨_, hf⟩, hp, hv, by simp [encOutcome, hf, hm]⟩)
    all_goals
      exact .inr (.inr ⟨_, _, hf, by decide, hm, by decide, by simp [encOutcome, hf, hm]⟩)

/-- A whole transaction is the rejection of the word or the body of `ENC` on its operands. -/
theorem transact_cases (P : Config.Params) (w : Word) :
    (∃ r, decode w = .error r ∧ transact P w = rejectOutcome r) ∨
    (decode w = .ok (.enc (Command.ofWord w).temp (Command.ofWord w).fan (Command.ofWord w).mode
        (Command.ofWord w).fPresent (Command.ofWord w).mPresent (Command.ofWord w).tPresent) ∧
      transact P w = encOutcome P (Command.ofWord w).temp (Command.ofWord w).fan
        (Command.ofWord w).mode (Command.ofWord w).fPresent (Command.ofWord w).mPresent
        (Command.ofWord w).tPresent) := by
  unfold transact
  split
  next h =>
    refine .inr ⟨?_, ?_⟩ <;>
      (unfold decode at h; dsimp only at h; split_ifs at h; injection h with h; injection h; simp_all [decode])
  next r h => exact .inl ⟨r, h, rfl⟩

end Sys2Proof.Machine
end

