-- ==== Sys2Proof/Laws/PerInstr.lean ====
section
/-!
SUPPORT. What is said of every instruction as syntax, one lemma per constructor.
-/

namespace Sys2Proof.Laws.EncodingMatchesRow

/-- The word of the instruction carries the fixed bits of its row of spec/opcode_table.json (R69). -/
def Statement (i : Instr) : Prop := encode i &&& 0xFF0001FF = 0x00000111

theorem enc (temp : Byte) (fan mode : BitVec 2) (fPresent mPresent tPresent : Bool) :
    Statement (.enc temp fan mode fPresent mPresent tPresent) := by
  unfold Statement
  apply BitVec.eq_of_getLsbD_eq
  intro i hi
  simp only [encode, Command.toWord, Instr.command, BitVec.getLsbD_and, BitVec.getLsbD_append]
  interval_cases i <;> simp

end Sys2Proof.Laws.EncodingMatchesRow
end

