-- ==== Sys2Proof/Laws/Render.lean ====
section
/-!
SUPPORT. The `FRAME` port loses nothing of a frame.
-/

namespace Sys2Proof.Machine

/-- What the `FRAME` port spells is the frame that was packed (R43). -/
@[simp] theorem frameOfPort_framePort (b : Frame) : frameOfPort (framePort b) = b := by
  cases b
  simp only [frameOfPort, framePort, Frame.mk.injEq]
  refine ⟨?_, ?_, ?_, ?_, ?_, ?_⟩ <;>
    · apply BitVec.eq_of_getLsbD_eq
      intro i hi
      simp only [BitVec.getLsbD_extractLsb', BitVec.getLsbD_append, hi, decide_true, Bool.true_and]
      split_ifs <;> first | omega | (congr 1; omega)

end Sys2Proof.Machine
end

