-- ==== Sys2Proof/Laws/State.lean ====
section
/-!
SUPPORT. One lemma per field per update of the state, all by `rfl`.
-/

namespace Sys2Proof.Machine

@[simp] theorem State.takeInput_cmd (s : State) (rest : List Input) :
    (s.takeInput rest).cmd = s.cmd := rfl
@[simp] theorem State.takeInput_outKind (s : State) (rest : List Input) :
    (s.takeInput rest).outKind = s.outKind := rfl
@[simp] theorem State.takeInput_outField (s : State) (rest : List Input) :
    (s.takeInput rest).outField = s.outField := rfl
@[simp] theorem State.takeInput_frame (s : State) (rest : List Input) :
    (s.takeInput rest).frame = s.frame := rfl
@[simp] theorem State.takeInput_hex (s : State) (rest : List Input) :
    (s.takeInput rest).hex = s.hex := rfl
@[simp] theorem State.takeInput_inputs (s : State) (rest : List Input) :
    (s.takeInput rest).inputs = rest := rfl

@[simp] theorem State.drive_cmd (s : State) (w : Word) :
    (s.drive w).cmd = w := rfl
@[simp] theorem State.drive_outKind (s : State) (w : Word) :
    (s.drive w).outKind = s.outKind := rfl
@[simp] theorem State.drive_outField (s : State) (w : Word) :
    (s.drive w).outField = s.outField := rfl
@[simp] theorem State.drive_frame (s : State) (w : Word) :
    (s.drive w).frame = s.frame := rfl
@[simp] theorem State.drive_hex (s : State) (w : Word) :
    (s.drive w).hex = s.hex := rfl
@[simp] theorem State.drive_inputs (s : State) (w : Word) :
    (s.drive w).inputs = s.inputs := rfl

@[simp] theorem State.showOk_cmd (s : State) (b : Frame) (cs : Vector Char 12) :
    (s.showOk b cs).cmd = s.cmd := rfl
@[simp] theorem State.showOk_outKind (s : State) (b : Frame) (cs : Vector Char 12) :
    (s.showOk b cs).outKind = some okKindCode := rfl
@[simp] theorem State.showOk_outField (s : State) (b : Frame) (cs : Vector Char 12) :
    (s.showOk b cs).outField = some noFieldCode := rfl
@[simp] theorem State.showOk_frame (s : State) (b : Frame) (cs : Vector Char 12) :
    (s.showOk b cs).frame = some (framePort b) := rfl
@[simp] theorem State.showOk_hex (s : State) (b : Frame) (cs : Vector Char 12) :
    (s.showOk b cs).hex = some (hexPort cs) := rfl
@[simp] theorem State.showOk_inputs (s : State) (b : Frame) (cs : Vector Char 12) :
    (s.showOk b cs).inputs = s.inputs := rfl

@[simp] theorem State.raise_cmd (s : State) (e : TxError) :
    (s.raise e).cmd = s.cmd := rfl
@[simp] theorem State.raise_outKind (s : State) (e : TxError) :
    (s.raise e).outKind = some e.kind.code := rfl
@[simp] theorem State.raise_outField (s : State) (e : TxError) :
    (s.raise e).outField = some e.field.code := rfl
@[simp] theorem State.raise_frame (s : State) (e : TxError) :
    (s.raise e).frame = none := rfl
@[simp] theorem State.raise_hex (s : State) (e : TxError) :
    (s.raise e).hex = none := rfl
@[simp] theorem State.raise_inputs (s : State) (e : TxError) :
    (s.raise e).inputs = s.inputs := rfl

@[simp] theorem State.clearResults_cmd (s : State) :
    (s.clearResults).cmd = s.cmd := rfl
@[simp] theorem State.clearResults_outKind (s : State) :
    (s.clearResults).outKind = none := rfl
@[simp] theorem State.clearResults_outField (s : State) :
    (s.clearResults).outField = none := rfl
@[simp] theorem State.clearResults_frame (s : State) :
    (s.clearResults).frame = none := rfl
@[simp] theorem State.clearResults_hex (s : State) :
    (s.clearResults).hex = none := rfl
@[simp] theorem State.clearResults_inputs (s : State) :
    (s.clearResults).inputs = s.inputs := rfl

@[simp] theorem State.presentNext_cmd (s : State) (w : Word) :
    (s.presentNext w).cmd = s.cmd := rfl
@[simp] theorem State.presentNext_outKind (s : State) (w : Word) :
    (s.presentNext w).outKind = s.outKind := rfl
@[simp] theorem State.presentNext_outField (s : State) (w : Word) :
    (s.presentNext w).outField = s.outField := rfl
@[simp] theorem State.presentNext_frame (s : State) (w : Word) :
    (s.presentNext w).frame = s.frame := rfl
@[simp] theorem State.presentNext_hex (s : State) (w : Word) :
    (s.presentNext w).hex = s.hex := rfl
@[simp] theorem State.presentNext_inputs (s : State) (w : Word) :
    (s.presentNext w).inputs = .command w :: s.inputs := rfl

end Sys2Proof.Machine
end

