-- ==== Sys2Proof/Laws/Step.lean ====
section
/-!
SUPPORT. What completing a transaction and taking a step can do, said once.
-/

namespace Sys2Proof.Machine

/-- A transaction that completes with a next state shows a frame or raises an error (R12). -/
theorem complete_next {o : TxOutcome} {s s' : State} (h : complete o s = .next s') :
    (∃ b cs, o = .ok b cs ∧ s' = s.showOk b cs) ∨ (∃ e, o = .err e ∧ s' = s.raise e) := by
  match o, h with
  | .ok b cs, h => exact .inl ⟨b, cs, rfl, (Host.Outcome.next.inj h).symm⟩
  | .err e, h => exact .inr ⟨e, rfl, (Host.Outcome.next.inj h).symm⟩
  | .refused .noCommand, h => cases h
  | .refused .reservedBits, h => cases h

/-- The transaction of the word on CMD is the spec's function of that word (R20, R29). -/
theorem runCmd_eq (s : State) : runCmd s = complete (transact Config.params s.cmd) s := by
  unfold runCmd transact
  match decode s.cmd with
  | .ok (.enc ..) => rfl
  | .error _ => rfl

/-- A step whose next input is a command is that command's transaction. -/
theorem step_command {s : State} {w : Word} {rest : List Input} (h : s.inputs = .command w :: rest) :
    step s = complete (transact Config.params w) ((s.takeInput rest).drive w) := by
  simp [step, fetch, h, runCmd_eq]

/-- All that a step can do when it gives a next state. -/
theorem step_cases {s s' : State} (h : step s = .next s') :
    (s.inputs = [] ∧ s' = s) ∨
    (∃ w rest, (s.inputs = .command w :: rest ∨ s.inputs = .commandChanged w w :: rest) ∧
      complete (transact Config.params w) ((s.takeInput rest).drive w) = .next s') ∨
    (∃ w rest, s.inputs = .commandReset w :: rest ∧
      s' = ((s.takeInput rest).drive w).clearResults) ∨
    (∃ rest, s.inputs = .reset :: rest ∧ s' = (s.takeInput rest).clearResults) ∨
    (∃ p rest v, s.inputs = .read p :: rest ∧ readPort p (s.takeInput rest) = .ok v ∧
      s' = s.takeInput rest) := by
  match hi : s.inputs with
  | [] =>
    simp only [step, fetch, hi, Host.Outcome.next.injEq] at h
    exact .inl ⟨rfl, h.symm⟩
  | .command w :: rest =>
    rw [step_command hi] at h
    exact .inr (.inl ⟨w, rest, .inl rfl, h⟩)
  | .commandChanged first later :: rest =>
    by_cases he : first = later
    · subst he
      simp only [step, fetch, hi, if_true, runCmd_eq, State.drive_cmd] at h
      exact .inr (.inl ⟨first, rest, .inr rfl, h⟩)
    · simp [step, fetch, hi, he] at h
  | .commandReset w :: rest =>
    simp only [step, fetch, hi, Host.Outcome.next.injEq] at h
    exact .inr (.inr (.inl ⟨w, rest, rfl, h.symm⟩))
  | .reset :: rest =>
    simp only [step, fetch, hi, Host.Outcome.next.injEq] at h
    exact .inr (.inr (.inr (.inl ⟨rest, rfl, h.symm⟩)))
  | .read p :: rest =>
    simp only [step, fetch, hi, readInput] at h
    split at h
    next v hv => exact .inr (.inr (.inr (.inr ⟨p, rest, v, rfl, hv, (Host.Outcome.next.inj h).symm⟩)))
    next => cases h

/-- A run whose first step gives a next state goes on from it. -/
theorem run_succ_of_next {k : Nat} {s s' : State} (h : step s = .next s') :
    Host.Core.run Sys2Proof.core (k + 1) s = Host.Core.run Sys2Proof.core k s' :=
  (show ∀ (M : Host.Core) (x y : M.State), M.step x = .next y → M.run (k + 1) x = M.run k y from
    fun _ _ _ hM => by simp only [Host.Core.run, hM]) Sys2Proof.core s s' h

end Sys2Proof.Machine
end

