-- ==== Sys2Proof/Tests/Slice0.lean ====
section
/-!
SUPPORT. Tests of the model on values taken from spec/95_test_vectors.md and from the rules' own
examples, and for each statement with hypotheses a witness that meets them.
-/

namespace Sys2Proof.Machine.Tests

/-- The state after reset with one word presented. -/
def one (w : Word) : State := State.reset.presentNext w

/-- The `FRAME` and `HEX` ports of a next state. -/
def framePorts (o : Host.Outcome State Fault Refusal) : Option (BitVec 48) × Option (BitVec 96) :=
  match o with
  | .next s => (s.frame, s.hex)
  | .fault _ => (none, none)
  | .refused _ => (none, none)

/-- The `OUT_KIND` and `OUT_FIELD` ports of a next state. -/
def codePorts (o : Host.Outcome State Fault Refusal) : Option (BitVec 2) × Option (BitVec 3) :=
  match o with
  | .next s => (s.outKind, s.outField)
  | .fault _ => (none, none)
  | .refused _ => (none, none)

/-! ### Well-formedness: the four checks of a command, the checks of an assembler statement -/

/-- The command of `ENC temp=21 mode=COOL fan=AUTO`. -/
def good : Command := ⟨0x1, 0x1, true, true, true, true, 0b00, 0b00, 21, 0⟩

theorem test_wf_good : good.wellFormed = true := by decide
theorem test_wf_refuses_has_cmd : { good with hasCmd := false }.wellFormed = false := by decide
theorem test_wf_refuses_rsvd : { good with rsvd := 0x80 }.wellFormed = false := by decide
theorem test_wf_refuses_target : { good with target := 0x0 }.wellFormed = false := by decide
theorem test_wf_refuses_action : { good with action := 0x2 }.wellFormed = false := by decide
theorem test_asm_wf_good :
    (AsmLine.enc [.fan (.raw 3), .temp 255, .mode .heat]).wellFormed = true := by decide
theorem test_asm_wf_refuses_temp : (AsmLine.enc [.temp 256]).wellFormed = false := by decide
theorem test_asm_wf_refuses_mode : (AsmLine.enc [.mode (.raw 4)]).wellFormed = false := by decide
theorem test_asm_wf_refuses_fan : (AsmLine.enc [.fan (.raw 4)]).wellFormed = false := by decide
theorem test_asm_wf_refuses_two_temps :
    (AsmLine.enc [.temp 18, .mode .cool, .temp 18]).wellFormed = false := by decide
theorem test_asm_wf_refuses_two_modes :
    (AsmLine.enc [.mode .cool, .mode .heat]).wellFormed = false := by decide
theorem test_asm_wf_refuses_two_fans :
    (AsmLine.enc [.fan .low, .fan .low]).wellFormed = false := by decide

/-! ### Decoder: words written out from 30_encoding.md R60 and R69 -/

/-- `RSVD` 00000000, `TEMP` 00011010 (26), `FAN` 01, `MODE` 01, f m t 1 1 1, `HAS_CMD` 1, `ACTION`
0001, `TARGET` 0001. -/
theorem test_decode_bits :
    decode 0b00000000000110100101111100010001 = .ok (.enc 26 0b01 0b01 true true true) := by decide
/-- `TEMP` 11111111, `FAN` 10, `MODE` 00, f m t 1 0 0: each field away from its neighbours. -/
theorem test_decode_separates_fields :
    decode 0b00000000111111111000100100010001 = .ok (.enc 255 0b10 0b00 true false false) := by
  decide
theorem test_encode_word : encode (.enc 21 0b00 0b00 true true true) = 0x00150F11 := by decide
theorem test_decode_all_zero : decode 0x00000000 = .error .noCommand := by decide
theorem test_decode_reserved_before_device : decode 0x80000113 = .error .reservedBits := by decide
theorem test_decode_device_before_action : decode 0x000001FF = .error .unsupportedDevice := by
  decide
theorem test_decode_action : decode 0x00000101 = .error .unsupportedAction := by decide
theorem test_decode_table_word :
    decodeTableWord 32 0x00124F11 = some (.enc 18 0b01 0b00 true true true) := by decide

/-! ### Functions inside the operation: 95_test_vectors.md sections 2.1 to 2.4 -/

theorem test_csum_header : csum 0xB2 = 0x4D := by decide
theorem test_pack : pack 0x6 0xC = 0x6C := by decide
theorem test_resolve_fan_absent_reserved : resolveFan false 0b11 = .ok 0xA0 := by decide
/-- Section 3.3's hypothetical instance, `P_TEMP_ABSENT` = 6 and `P_TEMP_UNRECOGNIZED` = 14. -/
def hypothetical : Config.Params := { (default : Config.Params) with
  tempAbsent := 0x6, tempUnrecognized := 0xE }
/-- Section 3.3, word 2: `ENC temp=40 mode=HEAT` renders as `B24DA05FEC13`. -/
theorem test_unrecognized_frame :
    (match transact hypothetical 0x00281711 with | .ok b _ => framePort b | _ => 0)
      = 0xB24DA05FEC13 := by decide
/-- Section 3.3, word 1: `ENC` with every key omitted renders as `B24DA05F609F`. -/
theorem test_absent_frame :
    (match transact hypothetical 0x00000111 with | .ok b _ => framePort b | _ => 0)
      = 0xB24DA05F609F := by decide
/-- Section 2.4: a zero byte keeps both digits. -/
theorem test_render_zero_byte : (render ⟨0xB2, 0x4D, 0xE0, 0x1F, 0x00, 0xFF⟩).toList =
    ['B', '2', '4', 'D', 'E', '0', '1', 'F', '0', '0', 'F', 'F'] := by decide

/-! ### One step: 95_test_vectors.md sections 1.1 and 2.7 -/

/-- Scenario 2 of the source. -/
theorem test_enc_scenario2 : framePorts (step (one 0x001A5F11)) =
    (some 0xB24DE01FDC23, some 0x423234444530314644433233) := by decide
/-- `ENC temp=18 mode=#3 fan=#2`: the fan is named before the mode. -/
theorem test_enc_fan_before_mode : codePorts (step (one 0x0012BF11)) = (some 0b11, some 0b101) := by
  decide
/-- A row's word placed by `withFetchWord` is the next to run. -/
theorem test_with_fetch_word : framePorts (step (State.reset.withFetchWord 32 0x00120311)) =
    (some 0xB24DA05F10EF, some 0x423234444130354631304546) := by decide

/-! ### Assembler: 30_encoding.md R77 -/

theorem test_asm_text : (asmParse ['E', 'N', 'C', ' ', 't', 'e', 'm', 'p', '=', '2', '1', ' ', 'm',
    'o', 'd', 'e', '=', 'C', 'O', 'O', 'L', ' ', 'f', 'a', 'n', '=', 'A', 'U', 'T', 'O']).bind asmWord
      = some 0x00150F11 := by decide
theorem test_asm_raw_keys : asmWord (.enc [.fan (.raw 2), .mode (.raw 3), .temp 18]) =
    some 0x0012BF11 := by decide
theorem test_asm_cmd_text : (asmParse ['.', 'c', 'm', 'd', ' ', '0', 'x', '0', '0', '0', '0', 'C',
    '9', '2', '1']).bind asmWord = some 0x0000C921 := by decide

/-! ### Witnesses: the hypotheses of each statement can be met, clause by clause -/

theorem witness_ResolveTempLooksUpOrDefaults :
    ((0 : Byte).toNat < 16 ∨ 30 < (0 : Byte).toNat) ∧
    ((15 : Byte).toNat < 16 ∨ 30 < (15 : Byte).toNat) ∧
    ((31 : Byte).toNat < 16 ∨ 30 < (31 : Byte).toNat) ∧
    ((255 : Byte).toNat < 16 ∨ 30 < (255 : Byte).toNat) := by decide
theorem witness_DefaultsAreIndependent :
    ∃ b b1 b2 b3 cs cs1 cs2 cs3,
      encOutcome hypothetical 18 0b00 0b00 false false true = .ok b cs ∧
      encOutcome hypothetical 31 0b00 0b00 false false false = .ok b1 cs1 ∧
      encOutcome hypothetical 18 0b00 0b01 false true true = .ok b2 cs2 ∧
      encOutcome hypothetical 18 0b01 0b00 true false true = .ok b3 cs3 :=
  ⟨_, _, _, _, _, _, _, _, rfl, rfl, rfl, rfl⟩
theorem witness_TemperatureNeverDecidesAnError :
    encOutcome hypothetical 99 0b00 0b10 false true true = .err ⟨.unsupportedValue, .mode⟩ ∧
    encOutcome hypothetical 18 0b11 0b00 true false true = .err ⟨.unsupportedValue, .fan⟩ :=
  ⟨rfl, rfl⟩
theorem witness_DecodeSelectsEncByMask :
    (0x00FFFF11 : Word) &&& 0xFF0001FF = 0x00000111 ∧
    (0x00000111 : Word) &&& 0xFF0001FF = 0x00000111 ∧
    (0x01000111 : Word) &&& 0xFF0001FF ≠ 0x00000111 ∧
    (0x00000011 : Word) &&& 0xFF0001FF ≠ 0x00000111 := by decide
theorem witness_EncodeOfDecode :
    decode 0x00FFFF11 = .ok (.enc 255 0b11 0b11 true true true) := by decide
theorem witness_AssemblerEncodesKeys :
    (AsmLine.enc []).wellFormed = true ∧
    (AsmLine.enc [.temp 0, .fan .auto, .mode .cool]).wellFormed = true ∧
    (AsmLine.enc [.mode .heat, .temp 255, .fan .low]).wellFormed = true ∧
    (AsmLine.enc [.mode (.raw 3), .fan (.raw 0)]).wellFormed = true := by decide
theorem witness_AssemblerIgnoresKeyOrder :
    [AsmKey.temp 21, AsmKey.fan .low].Perm [AsmKey.fan .low, AsmKey.temp 21] := List.Perm.swap ..
theorem witness_StepRunsDecodedInstruction :
    (one 0x00120311).inputs = .command 0x00120311 :: [] ∧
    decode 0x00120311 = .ok (.enc 18 0b00 0b00 false false true) ∧
    (Instr.enc 18 0b00 0b00 false false true).wellFormed = true := by decide
/-- A supplied code at each end of the table, and absent reserved values. -/
theorem witness_EncCompletesWithFrame :
    ((true = true → (0b01 : BitVec 2) = 0b00 ∨ (0b01 : BitVec 2) = 0b01) ∧
      (true = true → (0b00 : BitVec 2) = 0b00 ∨ (0b00 : BitVec 2) = 0b01)) ∧
    ((false = true → (0b11 : BitVec 2) = 0b00 ∨ (0b11 : BitVec 2) = 0b01) ∧
      (false = true → (0b10 : BitVec 2) = 0b00 ∨ (0b10 : BitVec 2) = 0b01)) := by decide
/-- Fan 2 and 3 with a reserved mode (first clause); an absent reserved fan with mode 2 and 3 (second
clause): no operands meet both clauses. -/
theorem witness_EncRaisesOnReservedValue :
    (true = true ∧ ((0b10 : BitVec 2) = 0b10 ∨ (0b10 : BitVec 2) = 0b11)) ∧
    (true = true ∧ ((0b11 : BitVec 2) = 0b10 ∨ (0b11 : BitVec 2) = 0b11)) ∧
    ((false = true → (0b10 : BitVec 2) = 0b00 ∨ (0b10 : BitVec 2) = 0b01) ∧ true = true ∧
      ((0b10 : BitVec 2) = 0b10 ∨ (0b10 : BitVec 2) = 0b11)) ∧
    ((true = true → (0b01 : BitVec 2) = 0b00 ∨ (0b01 : BitVec 2) = 0b01) ∧ true = true ∧
      ((0b11 : BitVec 2) = 0b10 ∨ (0b11 : BitVec 2) = 0b11)) := by decide
theorem witness_CommandFollowsOutcomeTable :
    (one 0x0012BF11).inputs = .command 0x0012BF11 :: [] := by decide
/-- `TARGET` 0 and 15, the words `0x00000100` and `0x000001FF` of section 2.7. -/
theorem witness_UnsupportedDeviceRaised :
    ((0x00000100 : Word).getLsbD 8 = true ∧ (0x00000100 : Word).extractLsb' 24 8 = 0 ∧
      (0x00000100 : Word).extractLsb' 0 4 ≠ 0x1) ∧
    ((0x000001FF : Word).getLsbD 8 = true ∧ (0x000001FF : Word).extractLsb' 24 8 = 0 ∧
      (0x000001FF : Word).extractLsb' 0 4 ≠ 0x1) ∧
    (one 0x00000100).inputs = .command 0x00000100 :: [] := by decide
/-- `ACTION` 0 and 2, the words `0x00000101` and `0x0000C921` of section 2.7. -/
theorem witness_UnsupportedActionRaised :
    ((0x00000101 : Word).getLsbD 8 = true ∧ (0x00000101 : Word).extractLsb' 24 8 = 0 ∧
      (0x00000101 : Word).extractLsb' 0 4 = 0x1 ∧ (0x00000101 : Word).extractLsb' 4 4 ≠ 0x1) ∧
    ((0x0000C921 : Word).getLsbD 8 = true ∧ (0x0000C921 : Word).extractLsb' 24 8 = 0 ∧
      (0x0000C921 : Word).extractLsb' 0 4 = 0x1 ∧ (0x0000C921 : Word).extractLsb' 4 4 ≠ 0x1) ∧
    (one 0x00000101).inputs = .command 0x00000101 :: [] := by decide
/-- A word for each clause: fan and mode reserved, mode alone, neither (absent reserved bits). -/
theorem witness_UnsupportedValueRaised :
    ((0x0012BF11 : Word) &&& 0xFF0001FF = 0x00000111 ∧ (0x0012BF11 : Word).getLsbD 11 = true ∧
      (0x0012BF11 : Word).extractLsb' 14 2 = 0b10) ∧
    ((0x00123711 : Word) &&& 0xFF0001FF = 0x00000111 ∧ (0x00123711 : Word).getLsbD 11 = false ∧
      (0x00123711 : Word).getLsbD 10 = true ∧ (0x00123711 : Word).extractLsb' 12 2 = 0b11) ∧
    ((0x0012F311 : Word) &&& 0xFF0001FF = 0x00000111 ∧ (0x0012F311 : Word).getLsbD 11 = false ∧
      (0x0012F311 : Word).getLsbD 10 = false) ∧
    (one 0x0012BF11).inputs = .command 0x0012BF11 :: [] := by decide
theorem witness_WordsOutsideContractRefused :
    (0x00000011 : Word).getLsbD 8 = false ∧
    ((0x01120311 : Word).getLsbD 8 = true ∧ (0x01120311 : Word).extractLsb' 24 8 ≠ 0) ∧
    (one 0x01120311).inputs = .command 0x01120311 :: [] := by decide
theorem witness_ErrorCarriesNoFrame :
    transact Config.params 0x00003512 = .err ⟨.unsupportedDevice, .target⟩ ∧
    { State.reset with inputs := [.command 0x00003512, .read .frame] }.inputs =
      .command 0x00003512 :: .read .frame :: [] ∧
    { State.reset with inputs := [.command 0x00003512, .read .hex] }.inputs =
      .command 0x00003512 :: .read .hex :: [] := ⟨rfl, rfl, rfl⟩
theorem witness_OkPortsAllReadable :
    (∃ b cs, transact Config.params 0x00150F11 = .ok b cs) ∧
    (one 0x00150F11).inputs = .command 0x00150F11 :: [] := ⟨⟨_, _, rfl⟩, rfl⟩
theorem witness_OutKindShowsOutcome :
    (∃ b cs, transact Config.params 0x00000111 = .ok b cs) ∧
    transact Config.params 0x00000100 = .err ⟨.unsupportedDevice, .target⟩ ∧
    transact Config.params 0x00000101 = .err ⟨.unsupportedAction, .action⟩ ∧
    transact Config.params 0x00122711 = .err ⟨.unsupportedValue, .mode⟩ ∧
    (one 0x00000111).inputs = .command 0x00000111 :: [] := ⟨⟨_, _, rfl⟩, rfl, rfl, rfl, rfl⟩
/-- A command step with a next state: Ok and an error. -/
theorem witness_TransactionAllOrNothing :
    (∃ s', step (one 0x00150F11) = .next s') ∧ (∃ s', step (one 0x00122711) = .next s') ∧
    (one 0x00150F11).inputs = .command 0x00150F11 :: [] ∧
    (one 0x00122711).inputs = .command 0x00122711 :: [] := ⟨⟨_, rfl⟩, ⟨_, rfl⟩, rfl, rfl⟩
theorem witness_EveryFrameStartsWithHeader :
    (∃ b cs, transact hypothetical 0x00000111 = .ok b cs) ∧
    (∃ s', step (one 0x00150F11) = .next s' ∧ s'.outKind = some 0b00) ∧
    (one 0x00150F11).inputs = .command 0x00150F11 :: [] := ⟨⟨_, _, rfl⟩, ⟨_, rfl, rfl⟩, rfl⟩
/-- For `EveryFramePassesCheck`, `RenderingPassesSourceProperties` and `FrameBytesFollowTables`: a
word with every field supplied, and one with every field absent. -/
theorem witness_EveryFramePassesCheck :
    (∃ b cs, transact hypothetical 0x001A5F11 = .ok b cs) ∧
    (∃ b cs, transact hypothetical 0x00000111 = .ok b cs) := ⟨⟨_, _, rfl⟩, ⟨_, _, rfl⟩⟩
theorem witness_RenderingPassesSourceProperties :
    ∃ b cs, transact hypothetical 0x00120311 = .ok b cs := ⟨_, _, rfl⟩
theorem witness_FrameBytesFollowTables :
    ∃ b cs, transact hypothetical 0x00005D11 = .ok b cs := ⟨_, _, rfl⟩
/-- The words of section 2.6 that differ in the bits of an absent mode and fan only. -/
theorem witness_AbsentValueBitsIgnored :
    (∀ i, i < 12 → (0x0012F311 : Word).getLsbD i = (0x00120311 : Word).getLsbD i) ∧
    ((0x00120311 : Word).getLsbD 10 = true →
      (0x0012F311 : Word).extractLsb' 12 2 = (0x00120311 : Word).extractLsb' 12 2) ∧
    ((0x00120311 : Word).getLsbD 11 = true →
      (0x0012F311 : Word).extractLsb' 14 2 = (0x00120311 : Word).extractLsb' 14 2) ∧
    ((0x00120311 : Word).getLsbD 9 = true →
      (0x0012F311 : Word).extractLsb' 16 8 = (0x00120311 : Word).extractLsb' 16 8) ∧
    (0x0012F311 : Word).extractLsb' 24 8 = (0x00120311 : Word).extractLsb' 24 8 := by decide
theorem witness_EqualWordsEqualOutcomes :
    (one 0x00120311).inputs = .command 0x00120311 :: [] ∧
    ({ State.reset with outKind := some 0b11, outField := some 0b101,
                        inputs := [.command 0x00120311, .reset] }).inputs =
      .command 0x00120311 :: [.reset] := by decide
theorem witness_RetryChangesNothing :
    ((one 0x00122711).presentNext 0x00122711).inputs =
      .command 0x00122711 :: .command 0x00122711 :: [] ∧
    ∃ s', step ((one 0x00122711).presentNext 0x00122711) = .next s' := ⟨rfl, ⟨_, rfl⟩⟩
/-- Program 3.2: an error between two equal commands; the third and the fourth word. -/
theorem witness_EveryTransactionAnswersItsOwnWord :
    ([0x001A5F11, 0x00003512, 0x0015CB11, 0x001A5F11] : List Word)[3]? = some 0x001A5F11 ∧
    (∀ v ∈ ([0x001A5F11, 0x00003512, 0x0015CB11, 0x001A5F11] : List Word).take (3 + 1),
      contractKept v = true) :=
  ⟨rfl, List.all_eq_true.1 (by decide)⟩
theorem witness_KeptContractRunsSafely :
    (∀ w ∈ ([0x000001FF, 0x001A5F11] : List Word), contractKept w = true) ∧
    ((one 0x001A5F11).presentNext 0x000001FF).inputs =
      ([0x000001FF, 0x001A5F11] : List Word).map .command :=
  ⟨List.all_eq_true.1 (by decide), rfl⟩
theorem witness_OnlyEncMakesFrames :
    (∃ s' v, step (one 0x00150F11) = .next s' ∧ s'.frame = some v ∧ (one 0x00150F11).frame ≠ some v) ∧
    (∃ s' v, step { State.reset with inputs := [.commandChanged 0x00150F11 0x00150F11] } = .next s' ∧
      s'.frame = some v ∧ State.reset.frame ≠ some v) :=
  ⟨⟨_, _, rfl, rfl, nofun⟩, ⟨_, _, rfl, rfl, nofun⟩⟩
theorem witness_OutFieldCodes :
    (∃ s', step (one 0x0012BF11) = .next s') ∧
    (one 0x0012BF11).inputs = .command 0x0012BF11 :: [] ∧
    ({ State.reset with outField := some 0b011 }).outField = some 0b011 ∧
    ({ State.reset with outField := some 0b111 }).outField = some 0b111 := ⟨⟨_, rfl⟩, rfl, rfl, rfl⟩
theorem witness_ListedTemperaturesDetermined :
    ((0x00120311 : Word).getLsbD 9 = true ∧ (0x00120311 : Word).extractLsb' 16 8 = 18) ∧
    ((0x00150311 : Word).getLsbD 9 = true ∧ (0x00150311 : Word).extractLsb' 16 8 = 21) ∧
    ((0x001A0311 : Word).getLsbD 9 = true ∧ (0x001A0311 : Word).extractLsb' 16 8 = 26) ∧
    (∀ b cs, transact hypothetical 0x00122711 ≠ .ok b cs) :=
  ⟨by decide, by decide, by decide, fun _ _ => nofun⟩
theorem witness_ResetLeavesNoResult :
    ({ State.reset with inputs := [.reset] }).inputs = .reset :: [] ∧
    ({ State.reset with inputs := [.commandReset 0x00150F11] }).inputs =
      .commandReset 0x00150F11 :: [] ∧
    ({ State.reset with inputs := [.read .hex] }).inputs = .read .hex :: [] ∧
    (∃ s', step State.reset = .next s') ∧
    (∀ w rest, State.reset.inputs ≠ .command w :: rest) ∧
    (∀ w rest, State.reset.inputs ≠ .commandChanged w w :: rest) :=
  ⟨rfl, rfl, rfl, ⟨_, rfl⟩, fun _ _ => nofun, fun _ _ => nofun⟩
theorem witness_ReadHasNoEffect :
    ({ State.reset with frame := some 0, inputs := [.read .frame] }).inputs = .read .frame :: [] ∧
    readPort .frame { State.reset with frame := some 0, inputs := [.read .frame] } = .ok 0 ∧
    readPort .hex { State.reset with inputs := [.read .hex] } = .error (.noValue .hex) :=
  ⟨rfl, rfl, rfl⟩
theorem witness_ChangingCommandFaults :
    (0x00150F11 : Word) ≠ 0x00150F10 ∧
    ({ State.reset with inputs := [.commandChanged 0x00150F11 0x00150F10] }).inputs =
      .commandChanged 0x00150F11 0x00150F10 :: [] ∧
    ({ State.reset with inputs := [.commandChanged 0x00150F11 0x00150F11] }).inputs =
      .commandChanged 0x00150F11 0x00150F11 :: [] := by decide
theorem witness_IdleChangesNothing : State.reset.inputs = [] := rfl
theorem witness_StepKeepsPortsWhole :
    (one 0x00150F11).portsWhole = true ∧ ∃ s', step (one 0x00150F11) = .next s' := ⟨by decide, ⟨_, rfl⟩⟩

end Sys2Proof.Machine.Tests
end

section
/-!
Proofs about the state and its ports (10_state.md): what completing a transaction leaves on the
result ports, what reading them answers, and the state after reset.
-/

namespace Sys2Proof.Machine

/-! ### Completing a transaction -/

@[simp] theorem complete_ok (b : Frame) (cs : Vector Char 12) (s : State) :
    complete (.ok b cs) s = .next (s.showOk b cs) := rfl

@[simp] theorem complete_err (e : TxError) (s : State) :
    complete (.err e) s = .next (s.raise e) := rfl

/-- A refused word is refused whatever the state, by a reason that only the word decides (R206). -/
theorem complete_refused (reason : RefuseReason) :
    ∃ r, ∀ s : State, complete (.refused reason) s = .refused r := by
  cases reason with
  | noCommand => exact ⟨.noCommand, fun _ => rfl⟩
  | reservedBits => exact ⟨.reservedBits, fun _ => rfl⟩

/-- What an outcome leaves on the four result ports, or the reason it is refused for, does not depend
on the state it completes in: every port is overwritten (R20, R29). -/
theorem complete_ports_agree (o : TxOutcome) (s t : State) :
    (∃ s' t', complete o s = .next s' ∧ complete o t = .next t' ∧ s'.outKind = t'.outKind ∧
      s'.outField = t'.outField ∧ s'.frame = t'.frame ∧ s'.hex = t'.hex) ∨
    (∃ r, complete o s = .refused r ∧ complete o t = .refused r) := by
  cases o with
  | ok b cs =>
    exact .inl ⟨s.showOk b cs, t.showOk b cs, complete_ok b cs s, complete_ok b cs t, by simp⟩
  | err e => exact .inl ⟨s.raise e, t.raise e, complete_err e s, complete_err e t, by simp⟩
  | refused reason =>
    obtain ⟨r, hr⟩ := complete_refused reason
    exact .inr ⟨r, hr s, hr t⟩

/-! ### Reading a port after an Ok outcome -/

@[simp] theorem readPort_outKind_showOk (s : State) (b : Frame) (cs : Vector Char 12) :
    readPort .outKind (s.showOk b cs) = .ok okKindCode := rfl

/-- The field code of an Ok outcome is one that is produced, so that reading it does not fault
(R71). -/
@[simp] theorem readPort_outField_showOk (s : State) (b : Frame) (cs : Vector Char 12) :
    readPort .outField (s.showOk b cs) = .ok noFieldCode := rfl

@[simp] theorem readPort_frame_showOk (s : State) (b : Frame) (cs : Vector Char 12) :
    readPort .frame (s.showOk b cs) = .ok (framePort b) := rfl

@[simp] theorem readPort_hex_showOk (s : State) (b : Frame) (cs : Vector Char 12) :
    readPort .hex (s.showOk b cs) = .ok (hexPort cs) := rfl

/-! ### The ports that hold nothing -/

/-- Four empty result ports are the first of the three shapes of `State.portsWhole` (R251). -/
theorem State.portsWhole_of_no_results {s : State} (hkind : s.outKind = none)
    (hfield : s.outField = none) (hframe : s.frame = none) (hhex : s.hex = none) :
    s.portsWhole = true := by
  simp only [State.portsWhole, hkind, hfield, hframe, hhex]

/-! ### The statements -/

/-- Settles O39: each step is its word's transaction, and the two transactions have one outcome,
which overwrites every result port. -/
theorem equalWordsEqualOutcomes : Obligations.EqualWordsEqualOutcomes := by
  intro s t w rest rest' hs ht
  rw [step_command hs, step_command ht]
  exact complete_ports_agree (transact Config.params w) _ _

/-- Settles O30: the next state is the one that shows the outcome, and its ports are read one by
one. -/
theorem okPortsAllReadable : Obligations.OkPortsAllReadable := by
  intro s w rest b cs hs hok
  have hstep : step s = .next (((s.takeInput rest).drive w).showOk b cs) := by
    rw [step_command hs, hok, complete_ok]
  exact ⟨_, hstep, readPort_outKind_showOk _ b cs, readPort_outField_showOk _ b cs,
    readPort_frame_showOk _ b cs, readPort_hex_showOk _ b cs⟩

/-- Settles O52: the reset state gives every result port no value. -/
theorem portsWholeAtReset : Obligations.PortsWholeAtReset :=
  ⟨State.portsWhole_of_no_results rfl rfl rfl rfl, rfl, rfl, rfl, rfl⟩

end Sys2Proof.Machine
end

section
/-!
Proofs about the result ports as memory (20_memory.md): where `FRAME` and `HEX` hold their bytes and
characters, that every step keeps the ports whole, and that each transaction of a run answers its own
word.
-/

namespace Sys2Proof.Machine

/-! ### Bytes and characters on the ports -/

/-- byte[k] is the eight bits of the `FRAME` port from 40-8k upwards (R43). -/
theorem extractLsb'_framePort_byte (b : Frame) (k : Fin 6) :
    (framePort b).extractLsb' (40 - 8 * k.val) 8 = b.byte k := by
  fin_cases k <;>
    simp [framePort, Frame.byte, BitVec.extractLsb'_append_eq_of_le (w := 8),
      BitVec.extractLsb'_append_eq_of_add_le (w := 8)]

/-- Digit i of the `FRAME` port, read as a hexadecimal number, is character i of the rendering (R43,
R107). -/
theorem getElem?_render_framePort (b : Frame) (i : Fin 12) :
    (render b)[i.val]? = some (hexdigit ((framePort b).extractLsb' (44 - 4 * i.val) 4)) := by
  fin_cases i <;>
    simp [render, framePort, hiNibble, loNibble, BitVec.extractLsb'_append_eq_of_le (w := 8),
      BitVec.extractLsb'_append_eq_of_add_le (w := 8)]

/-- Character i is the eight bits of the `HEX` port from 88-8i upwards (R44). -/
theorem extractLsb'_hexPort_char (cs : Vector Char 12) (i : Fin 12) :
    (hexPort cs).extractLsb' (88 - 8 * i.val) 8 = charCode (cs.get i) := by
  fin_cases i <;>
    simp [hexPort, Vector.get, BitVec.extractLsb'_append_eq_of_le (w := 8),
      BitVec.extractLsb'_append_eq_of_add_le (w := 8)]

/-! ### What a transaction answers -/

/-- A frame of table codes is legal whatever its temperature code is (R103 to R105, R142). -/
theorem assembleFrame_legal {fanCode : Byte} {modeCode : Nibble} (tempCode : Nibble)
    (hfan : fanCode = 0xA0 ∨ fanCode = 0xE0) (hmode : modeCode = 0x0 ∨ modeCode = 0xC) :
    (assembleFrame fanCode tempCode modeCode).legal = true := by
  obtain rfl | rfl := hfan <;> obtain rfl | rfl := hmode <;> revert tempCode <;> decide

/-- The outcome of a word that does not decode is that of its rejection (R75). -/
theorem transact_of_decode_error {w : Word} {r : Reject} (P : Config.Params)
    (hdec : decode w = .error r) : transact P w = rejectOutcome r := by
  simp only [transact, hdec]

/-- The outcome of an `ENC` word is that of the body of `ENC` on its operands (R100). -/
theorem transact_of_decode_enc {w : Word} {temp : Byte} {fan mode : BitVec 2}
    {fPresent mPresent tPresent : Bool} (P : Config.Params)
    (hdec : decode w = .ok (.enc temp fan mode fPresent mPresent tPresent)) :
    transact P w = encOutcome P temp fan mode fPresent mPresent tPresent := by
  simp only [transact, hdec]

/-- The body of `ENC` gives a legal frame with its own rendering, or an error of R203. -/
theorem encOutcome_whole (P : Config.Params) (temp : Byte) (fan mode : BitVec 2)
    (fPresent mPresent tPresent : Bool) :
    (∃ b, b.legal = true ∧
      encOutcome P temp fan mode fPresent mPresent tPresent = .ok b (render b)) ∨
    (∃ e, errorPair e.kind.code e.field.code = true ∧
      encOutcome P temp fan mode fPresent mPresent tPresent = .err e) := by
  obtain ⟨-, -, herr⟩ | ⟨-, -, -, herr⟩ | ⟨fanCode, modeCode, -, hfan, -, hmode, hok⟩ :=
    encOutcome_cases P temp fan mode fPresent mPresent tPresent
  · exact .inr ⟨_, rfl, herr⟩
  · exact .inr ⟨_, rfl, herr⟩
  · exact .inl ⟨_, assembleFrame_legal _ hfan hmode, hok⟩

/-- A transaction gives a legal frame with its own rendering, an error under one of the pairs of R201
to R203, or a refusal, and this last only for a word outside the caller's contract (R206). -/
theorem transact_whole (P : Config.Params) (w : Word) :
    (∃ b, b.legal = true ∧ transact P w = .ok b (render b)) ∨
    (∃ e, errorPair e.kind.code e.field.code = true ∧ transact P w = .err e) ∨
    (∃ r, contractKept w = false ∧ transact P w = .refused r) := by
  obtain ⟨hcmd, hdec⟩ | ⟨-, hrsvd, hdec⟩ | ⟨-, -, -, hdec⟩ | ⟨-, -, -, -, hdec⟩ | ⟨-, hdec⟩ :=
    decode_cases w
  · exact .inr (.inr ⟨_, by simp [contractKept, hcmd], transact_of_decode_error P hdec⟩)
  · exact .inr (.inr ⟨_, by simpa [contractKept] using fun _ => hrsvd,
      transact_of_decode_error P hdec⟩)
  · exact .inr (.inl ⟨⟨_, _⟩, rfl, transact_of_decode_error P hdec⟩)
  · exact .inr (.inl ⟨⟨_, _⟩, rfl, transact_of_decode_error P hdec⟩)
  · rw [transact_of_decode_enc P hdec]
    exact (encOutcome_whole P _ _ _ _ _ _).imp_right .inl

/-- A word within the caller's contract is not refused (R206, R253). -/
theorem transact_ne_refused_of_contractKept {w : Word} (P : Config.Params)
    (hkept : contractKept w = true) (r : RefuseReason) : transact P w ≠ .refused r := by
  intro href
  obtain ⟨b, -, h⟩ | ⟨e, -, h⟩ | ⟨-, hbroken, -⟩ := transact_whole P w
  · cases h.symm.trans href
  · cases h.symm.trans href
  · cases hbroken.symm.trans hkept

/-! ### The shapes of whole result ports -/

/-- Only the result ports decide whether they are whole. -/
@[simp] theorem State.portsWhole_takeInput (s : State) (rest : List Input) :
    (s.takeInput rest).portsWhole = s.portsWhole := rfl

@[simp] theorem State.portsWhole_clearResults (s : State) : s.clearResults.portsWhole = true := rfl

/-- A legal frame with its own rendering is the second shape of `State.portsWhole` (R101). -/
theorem State.portsWhole_showOk_render {b : Frame} (s : State) (hlegal : b.legal = true) :
    (s.showOk b (render b)).portsWhole = true := by
  simp [State.portsWhole, okKindCode, noFieldCode, hlegal]

/-- An error under one of its pairs is the third shape of `State.portsWhole` (R204). -/
theorem State.portsWhole_raise {e : TxError} (s : State)
    (hpair : errorPair e.kind.code e.field.code = true) : (s.raise e).portsWhole = true := by
  simp [State.portsWhole, hpair]

/-- Whatever the ports held before, a transaction that completes leaves them whole (R46). -/
theorem complete_transact_portsWhole {P : Config.Params} {w : Word} {s s' : State}
    (h : complete (transact P w) s = .next s') : s'.portsWhole = true := by
  obtain ⟨b, hlegal, htx⟩ | ⟨e, hpair, htx⟩ | ⟨r, -, htx⟩ := transact_whole P w
  · rw [htx, complete_ok, Host.Outcome.next.injEq] at h
    exact h ▸ State.portsWhole_showOk_render s hlegal
  · rw [htx, complete_err, Host.Outcome.next.injEq] at h
    exact h ▸ State.portsWhole_raise s hpair
  · obtain ⟨reason, href⟩ := complete_refused r
    rw [htx, href] at h
    cases h

/-! ### Runs of transactions -/

/-- An outcome overwrites every result port, so that completing it depends on nothing of the state but
the word on CMD and the inputs to come (R29). -/
theorem complete_congr {s t : State} (o : TxOutcome) (hcmd : s.cmd = t.cmd)
    (hinputs : s.inputs = t.inputs) : complete o s = complete o t := by
  cases o with
  | ok b cs => simp [State.showOk, hcmd, hinputs]
  | err e => simp [State.raise, hcmd, hinputs]
  | refused reason =>
    obtain ⟨r, hr⟩ := complete_refused reason
    rw [hr, hr]

/-- Completing an outcome that is not a refusal gives a next state, which keeps the inputs. -/
theorem complete_next_of_ne_refused {o : TxOutcome} (s : State) (ho : ∀ r, o ≠ .refused r) :
    ∃ s', complete o s = .next s' ∧ s'.inputs = s.inputs := by
  cases o with
  | ok b cs => exact ⟨_, complete_ok b cs s, State.showOk_inputs s b cs⟩
  | err e => exact ⟨_, complete_err e s, State.raise_inputs s e⟩
  | refused reason => exact absurd rfl (ho reason)

/-- A command of a kept contract steps to a next state, with the inputs after it to come. -/
theorem step_command_next_of_contractKept {s : State} {w : Word} {rest : List Input}
    (hs : s.inputs = .command w :: rest) (hkept : contractKept w = true) :
    ∃ s', step s = .next s' ∧ s'.inputs = rest := by
  rw [step_command hs]
  exact complete_next_of_ne_refused _ (transact_ne_refused_of_contractKept _ hkept)

/-- The run of one step is that step. -/
theorem run_one_of_next {s s' : State} (h : step s = .next s') :
    Host.Core.run Sys2Proof.core 1 s = step s := by
  rw [run_succ_of_next h, h]
  rfl

/-- A run through commands of a kept contract ends in the completion of the last one taken, with its
word on CMD and the inputs after it to come: the words before it leave nothing behind (R49, R256). -/
theorem run_commands_eq_complete (ws : List Word) (k : Nat) (w : Word) (s : State)
    (rest : List Input) (hs : s.inputs = ws.map .command ++ rest) (hw : ws[k]? = some w)
    (hkept : ∀ v ∈ ws.take (k + 1), contractKept v = true) :
    Host.Core.run Sys2Proof.core (k + 1) s = complete (transact Config.params w)
      { s with cmd := w, inputs := (ws.drop (k + 1)).map .command ++ rest } := by
  induction k generalizing ws s with
  | zero =>
    match ws with
    | [] => cases hw
    | v :: vs =>
      obtain rfl : v = w := Option.some.inj hw
      obtain ⟨s', hstep, -⟩ := step_command_next_of_contractKept hs (hkept v (by simp))
      rw [run_one_of_next hstep, step_command hs]
      rfl
  | succ k ih =>
    match ws with
    | [] => cases hw
    | v :: vs =>
      obtain ⟨s', hstep, hs'⟩ := step_command_next_of_contractKept hs (hkept v (by simp))
      have hkept' : ∀ u ∈ vs.take (k + 1), contractKept u = true :=
        fun u hu => hkept u (List.mem_cons_of_mem v hu)
      rw [run_succ_of_next hstep]
      exact (ih vs s' hs' hw hkept').trans (complete_congr _ rfl rfl)

/-! ### Reads of the result ports -/

/-- What a port reads as does not depend on the inputs to come. -/
@[simp] theorem readPort_takeInput (p : ResultPort) (s : State) (rest : List Input) :
    readPort p (s.takeInput rest) = readPort p s := by
  cases p <;> rfl

/-- A step whose next input is a read is that read, with the input taken. -/
theorem step_read {s : State} {p : ResultPort} {rest : List Input}
    (hs : s.inputs = .read p :: rest) : step s = readInput p (s.takeInput rest) := by
  simp only [step, fetch, hs]

/-- A read of a port that can be read leaves the state as it is (R48). -/
theorem readInput_of_ok {p : ResultPort} {s : State} {v : BitVec p.width}
    (h : readPort p s = .ok v) : readInput p s = .next s := by
  simp only [readInput, h]

/-- A read of a port that cannot be read is the fault of `readPort`. -/
theorem readInput_of_error {p : ResultPort} {s : State} {e : Fault}
    (h : readPort p s = .error e) : readInput p s = .fault e := by
  simp only [readInput, h]

/-! ### The statements -/

/-- Settles O53: a step shows a completed transaction, empties the ports or leaves them alone. -/
theorem stepKeepsPortsWhole : Obligations.StepKeepsPortsWhole := by
  intro s s' hwhole hstep
  obtain ⟨-, rfl⟩ | ⟨w, rest, -, hdone⟩ | ⟨w, rest, -, rfl⟩ | ⟨rest, -, rfl⟩ |
    ⟨p, rest, v, -, -, rfl⟩ := step_cases hstep
  · exact hwhole
  · exact complete_transact_portsWhole hdone
  · exact State.portsWhole_clearResults _
  · exact State.portsWhole_clearResults _
  · exact (State.portsWhole_takeInput s rest).trans hwhole

/-- Settles O41: the k-th word is within the contract, so it is not refused, and the run ends in its
completion. -/
theorem everyTransactionAnswersItsOwnWord : Obligations.EveryTransactionAnswersItsOwnWord := by
  intro ws k w s rest hs hw hkept
  have hmem : w ∈ ws.take (k + 1) :=
    List.mem_of_getElem? (i := k) ((List.getElem?_take_of_lt k.lt_succ_self).trans hw)
  exact ⟨_, rfl, transact_ne_refused_of_contractKept _ (hkept w hmem),
    run_commands_eq_complete ws k w s rest hs hw hkept⟩

/-- Settles O6: the bytes and the digits by their places; the port is packed from byte[0] down. -/
theorem framePortPlacesBytes : Obligations.FramePortPlacesBytes :=
  fun b => ⟨extractLsb'_framePort_byte b, rfl, getElem?_render_framePort b⟩

/-- Settles O7: the characters by their places, one case per character. -/
theorem hexPortPlacesCharacters : Obligations.HexPortPlacesCharacters :=
  extractLsb'_hexPort_char

/-- Settles O49: the step is the read with its input taken, and what a port reads as does not depend on
the inputs. -/
theorem readHasNoEffect : Obligations.ReadHasNoEffect := by
  intro s p rest hs
  rw [step_read hs]
  exact ⟨fun v hv => readInput_of_ok ((readPort_takeInput p s rest).trans hv),
    fun e he => readInput_of_error ((readPort_takeInput p s rest).trans he)⟩

/-- Settles O51: with an empty queue nothing is fetched, and the state is the next state (log entry
8). -/
theorem idleChangesNothing : Obligations.IdleChangesNothing := by
  intro s hs
  simp only [step, fetch, hs]

end Sys2Proof.Machine
end

section
/-!
Proofs about the command word (30_encoding.md R60, R61, R69): its fields, which words select `ENC`,
and that the decoder and the encoder are inverse.
-/

namespace Sys2Proof

/-! ### The command word and its fields -/

/-- The unsigned value of `len` bits of a word from `lo` upwards (R61). -/
theorem toNat_extractLsb'_eq_div_mod (w : Word) (lo len : Nat) :
    (w.extractLsb' lo len).toNat = w.toNat / 2 ^ lo % 2 ^ len := by
  rw [BitVec.extractLsb'_toNat, Nat.shiftRight_eq_div_pow]

/-- The unsigned value of one bit of a word (R61). -/
theorem toNat_getLsbD_eq_div_mod (w : Word) (i : Nat) :
    (w.getLsbD i).toNat = w.toNat / 2 ^ i % 2 :=
  Nat.toNat_testBit w.toNat i

/-- Splitting the word of a command gives the command back (R60). -/
theorem Command.ofWord_toWord (c : Command) : Command.ofWord c.toWord = c := by
  cases c
  simp only [Command.ofWord, Command.toWord, BitVec.getLsbD_append]
  simp [BitVec.extractLsb'_append_eq_of_le (w := 1), BitVec.extractLsb'_append_eq_of_le (w := 2),
    BitVec.extractLsb'_append_eq_of_le (w := 4), BitVec.extractLsb'_append_eq_of_le (w := 8),
    BitVec.extractLsb'_append_eq_of_add_le (w := 2),
    BitVec.extractLsb'_append_eq_of_add_le (w := 4),
    BitVec.extractLsb'_append_eq_of_add_le (w := 8)]

/-- Joining the fields of a word gives the word back: each of its bits is in one of them (R60). -/
theorem Command.toWord_ofWord (w : Word) : (Command.ofWord w).toWord = w := by
  apply BitVec.eq_of_getLsbD_eq
  intro i hi
  simp only [Command.ofWord, Command.toWord, BitVec.getLsbD_append]
  interval_cases i <;> simp

/-! ### Words that select `ENC` -/

/-- The four checks of R69, one by one. -/
theorem Command.wellFormed_iff (c : Command) :
    c.wellFormed = true ↔ c.hasCmd = true ∧ c.rsvd = 0 ∧ c.target = 0x1 ∧ c.action = 0x1 := by
  simp [Command.wellFormed, and_assoc]

/-- A command that selects `ENC` is the command of the `ENC` of its operands (R69, R74). -/
theorem Command.eq_command_enc_of_wellFormed {c : Command} (h : c.wellFormed = true) :
    c = (Instr.enc c.temp c.fan c.mode c.fPresent c.mPresent c.tPresent).command := by
  obtain ⟨hcmd, hrsvd, htarget, haction⟩ := c.wellFormed_iff.1 h
  cases c
  simp_all [Instr.command]

/-- The decoder answers an instruction exactly for the words whose fields are that instruction's
command (R69). -/
theorem decode_eq_ok_iff (w : Word) (i : Instr) :
    decode w = .ok i ↔ Command.ofWord w = i.command := by
  constructor
  · intro h
    obtain ⟨-, hdec⟩ | ⟨-, -, hdec⟩ | ⟨-, -, -, hdec⟩ | ⟨-, -, -, -, hdec⟩ | ⟨hwf, hdec⟩ :=
      decode_cases w
    case inr.inr.inr.inr =>
      obtain rfl : _ = i := Except.ok.inj (hdec.symm.trans h)
      exact Command.eq_command_enc_of_wellFormed hwf
    all_goals cases hdec.symm.trans h
  · intro h
    cases i
    simp [decode, h, Instr.command]

/-- The mask of R69 keeps the four fixed fields of a word whole, and its pattern is well formed. -/
theorem Command.wellFormed_of_mask {w : Word} (h : w &&& 0xFF0001FF = 0x00000111) :
    (Command.ofWord w).wellFormed = true := by
  have hnibble : ∀ v : Nibble, v &&& 15#4 = v := fun _ => BitVec.and_allOnes
  have hbyte : ∀ v : Byte, v &&& 255#8 = v := fun _ => BitVec.and_allOnes
  calc (Command.ofWord w).wellFormed
      = (Command.ofWord (w &&& 0xFF0001FF)).wellFormed := by
        simp [Command.ofWord, Command.wellFormed, BitVec.extractLsb'_and, hnibble, hbyte]
    _ = true := by rw [h]; decide

/-- A word that decodes is the word of what it decodes to: no bit of it is dropped. -/
theorem encode_of_decode {w : Word} {i : Instr} (h : decode w = .ok i) : encode i = w := by
  rw [encode, ← (decode_eq_ok_iff w i).1 h, Command.toWord_ofWord]

/-- A word that decodes meets the mask of R69, as the words of instructions do. -/
theorem mask_of_decode {w : Word} {i : Instr} (h : decode w = .ok i) :
    w &&& 0xFF0001FF = 0x00000111 := by
  cases i
  rw [← encode_of_decode h]
  exact Laws.EncodingMatchesRow.enc ..

/-- A word whose fields pass the checks of R69 decodes to the `ENC` of its operands. -/
theorem decode_of_wellFormed {w : Word} (h : (Command.ofWord w).wellFormed = true) :
    decode w = .ok (.enc (Command.ofWord w).temp (Command.ofWord w).fan (Command.ofWord w).mode
      (Command.ofWord w).fPresent (Command.ofWord w).mPresent (Command.ofWord w).tPresent) :=
  (decode_eq_ok_iff w _).2 (Command.eq_command_enc_of_wellFormed h)

/-- The mask of R69 is met exactly by the words whose fields pass its four checks. -/
theorem mask_iff_wellFormed (w : Word) :
    w &&& 0xFF0001FF = 0x00000111 ↔ (Command.ofWord w).wellFormed = true :=
  ⟨Command.wellFormed_of_mask, fun h => mask_of_decode (decode_of_wellFormed h)⟩

end Sys2Proof

namespace Sys2Proof.Machine

/-! ### The statements about words and fields -/

/-- Settles O16: the fields of the word of an instruction are its command's. -/
theorem decodeOfEncode : Obligations.DecodeOfEncode :=
  fun i => ⟨i.wellFormed_true, (decode_eq_ok_iff _ i).2 (Command.ofWord_toWord i.command)⟩

/-- Settles O13: each field is a slice of the word or one of its bits. -/
theorem commandFieldsAreTheirBits : Obligations.CommandFieldsAreTheirBits := fun w =>
  ⟨(toNat_extractLsb'_eq_div_mod w 0 4).trans (by rw [pow_zero, Nat.div_one]; rfl),
    toNat_extractLsb'_eq_div_mod w 4 4, toNat_getLsbD_eq_div_mod w 8,
    toNat_getLsbD_eq_div_mod w 9, toNat_getLsbD_eq_div_mod w 10, toNat_getLsbD_eq_div_mod w 11,
    toNat_extractLsb'_eq_div_mod w 12 2, toNat_extractLsb'_eq_div_mod w 14 2,
    toNat_extractLsb'_eq_div_mod w 16 8, toNat_extractLsb'_eq_div_mod w 24 8⟩

/-- Settles O14: both ways, field by field and bit by bit. -/
theorem commandWordRoundTrip : Obligations.CommandWordRoundTrip :=
  ⟨Command.ofWord_toWord, Command.toWord_ofWord⟩

/-- Settles O17: a word is joined again from the fields it was split into. -/
theorem encodeOfDecode : Obligations.EncodeOfDecode := fun _ _ h => encode_of_decode h

end Sys2Proof.Machine
end

section
/-!
Proofs about the assembler (30_encoding.md R77, R78): what each key of a statement sets, and that
the order of the keys does not matter.
-/

namespace Sys2Proof

/-! ### Keys and operands -/

/-- The value bits of the `<m>` of R77. -/
def AsmMode.bits : AsmMode → BitVec 2
  | .cool => 0b00
  | .heat => 0b01
  | .raw r => BitVec.ofNat 2 r

/-- The value bits of the `<f>` of R77. -/
def AsmFan.bits : AsmFan → BitVec 2
  | .auto => 0b00
  | .low => 0b01
  | .raw r => BitVec.ofNat 2 r

/-- The presence bit and the value bits of the temperature. -/
def Instr.tempOperand : Instr → Bool × Byte
  | .enc temp _ _ _ _ tPresent => (tPresent, temp)

/-- The presence bit and the value bits of the mode. -/
def Instr.modeOperand : Instr → Bool × BitVec 2
  | .enc _ _ mode _ mPresent _ => (mPresent, mode)

/-- The presence bit and the value bits of the fan. -/
def Instr.fanOperand : Instr → Bool × BitVec 2
  | .enc _ fan _ fPresent _ _ => (fPresent, fan)

/-- The checks of R77 on a statement's keys: each in its range, and each written at most once. -/
theorem AsmLine.wellFormed_enc_iff (keys : List AsmKey) :
    (AsmLine.enc keys).wellFormed = true ↔
      (∀ k ∈ keys, k.inRange = true) ∧ keys.countP AsmKey.isTemp ≤ 1 ∧
        keys.countP AsmKey.isMode ≤ 1 ∧ keys.countP AsmKey.isFan ≤ 1 := by
  simp [AsmLine.wellFormed, and_assoc]

/-- Whether a statement is in the grammar does not depend on the order of its keys (R77). -/
theorem AsmLine.wellFormed_enc_of_perm {keys keys' : List AsmKey} (h : keys.Perm keys') :
    (AsmLine.enc keys).wellFormed = (AsmLine.enc keys').wellFormed := by
  simp only [AsmLine.wellFormed, h.all_eq, h.countP_eq]

end Sys2Proof

namespace Sys2Proof.Machine

/-! ### What one key sets -/

theorem addKey_temp (temp : Byte) (fan mode : BitVec 2) (fPresent mPresent tPresent : Bool)
    (n : Nat) : addKey (.enc temp fan mode fPresent mPresent tPresent) (.temp n) =
      .enc (BitVec.ofNat 8 n) fan mode fPresent mPresent true := rfl

theorem addKey_mode (temp : Byte) (fan mode : BitVec 2) (fPresent mPresent tPresent : Bool)
    (m : AsmMode) : addKey (.enc temp fan mode fPresent mPresent tPresent) (.mode m) =
      .enc temp fan m.bits fPresent true tPresent := by
  cases m <;> rfl

theorem addKey_fan (temp : Byte) (fan mode : BitVec 2) (fPresent mPresent tPresent : Bool)
    (f : AsmFan) : addKey (.enc temp fan mode fPresent mPresent tPresent) (.fan f) =
      .enc temp f.bits mode true mPresent tPresent := by
  cases f <;> rfl

/-- How one operand (its presence bit and its value bits) depends on the keys: the keys of its own
kind make it present with their value, the others leave it, and without a key it is absent and 0. -/
structure OperandOfKey {α : Type} {n : Nat} (get : Instr → Bool × BitVec n)
    (isKind : AsmKey → Bool) (key : α → AsmKey) (value : α → BitVec n) : Prop where
  bare : get bareEnc = (false, 0)
  own : ∀ i a, get (addKey i (key a)) = (true, value a)
  other : ∀ i k, isKind k = false → get (addKey i k) = get i
  kind : ∀ k, isKind k = true ↔ ∃ a, key a = k

theorem tempOperand_ofKey :
    OperandOfKey Instr.tempOperand AsmKey.isTemp AsmKey.temp (BitVec.ofNat 8) where
  bare := rfl
  own | .enc .., _ => rfl
  other
    | .enc .., .mode m, _ => by rw [addKey_mode]; rfl
    | .enc .., .fan f, _ => by rw [addKey_fan]; rfl
  kind k := by cases k <;> simp [AsmKey.isTemp]

theorem modeOperand_ofKey :
    OperandOfKey Instr.modeOperand AsmKey.isMode AsmKey.mode AsmMode.bits where
  bare := rfl
  own | .enc .., m => by rw [addKey_mode]; rfl
  other
    | .enc .., .temp _, _ => rfl
    | .enc .., .fan f, _ => by rw [addKey_fan]; rfl
  kind k := by cases k <;> simp [AsmKey.isMode]

theorem fanOperand_ofKey :
    OperandOfKey Instr.fanOperand AsmKey.isFan AsmKey.fan AsmFan.bits where
  bare := rfl
  own | .enc .., f => by rw [addKey_fan]; rfl
  other
    | .enc .., .temp _, _ => rfl
    | .enc .., .mode m, _ => by rw [addKey_mode]; rfl
  kind k := by cases k <;> simp [AsmKey.isFan]

/-! ### What the keys of a statement set -/

section
variable {α : Type} {n : Nat} {get : Instr → Bool × BitVec n} {isKind : AsmKey → Bool}
  {key : α → AsmKey} {value : α → BitVec n} {keys : List AsmKey}

/-- What a key sets an operand to, if it is of its kind: the form `foldl_addKey_set` asks for. -/
def keySets (get : Instr → Bool × BitVec n) (isKind : AsmKey → Bool) (k : AsmKey) :
    Option (Bool × BitVec n) :=
  if isKind k then some (get (addKey bareEnc k)) else none

theorem keySets_isSome (k : AsmKey) : (keySets get isKind k).isSome = isKind k := by
  unfold keySets
  cases isKind k <;> rfl

theorem OperandOfKey.get_addKey (h : OperandOfKey get isKind key value) (i : Instr) (k : AsmKey) :
    get (addKey i k) = (keySets get isKind k).getD (get i) := by
  unfold keySets
  cases hk : isKind k with
  | false => exact h.other i k hk
  | true =>
    obtain ⟨a, rfl⟩ := (h.kind k).1 hk
    exact (h.own i a).trans (h.own bareEnc a).symm

/-- A key that is written once makes its operand present, at the value written (R77). -/
theorem OperandOfKey.foldl_of_mem (h : OperandOfKey get isKind key value)
    (honce : keys.countP isKind ≤ 1) {a : α} (ha : key a ∈ keys) :
    get (keys.foldl addKey bareEnc) = (true, value a) := by
  have hset : keySets get isKind (key a) = some (true, value a) := by
    rw [keySets, if_pos ((h.kind _).2 ⟨a, rfl⟩), h.own]
  refine foldl_addKey_set get (keySets get isKind) h.get_addKey keys ?_ (key a) ha _ hset bareEnc
  simpa only [keySets_isSome] using honce

/-- An omitted key leaves its operand absent, at 0 (R77, R78). -/
theorem OperandOfKey.foldl_of_forall_notMem (h : OperandOfKey get isKind key value)
    (hnone : ∀ a, key a ∉ keys) : get (keys.foldl addKey bareEnc) = (false, 0) := by
  refine (foldl_addKey_untouched get (keySets get isKind) h.get_addKey keys ?_ bareEnc).trans
    h.bare
  intro k hk
  refine if_neg fun hkind => ?_
  obtain ⟨a, rfl⟩ := (h.kind k).1 hkind
  exact hnone a hk

/-- An operand is present exactly when its key is written, has the value written, and is 0 when
it is absent (R77, R78). -/
theorem OperandOfKey.foldl_spec (h : OperandOfKey get isKind key value)
    (honce : keys.countP isKind ≤ 1) {present : Bool} {v : BitVec n}
    (hget : get (keys.foldl addKey bareEnc) = (present, v)) :
    (present = true ↔ ∃ a, key a ∈ keys) ∧ (∀ a, key a ∈ keys → v = value a) ∧
      (present = false → v = 0) := by
  by_cases hex : ∃ a, key a ∈ keys
  · have hmem : ∀ a, key a ∈ keys → present = true ∧ v = value a := fun a ha =>
      Prod.mk.inj (hget.symm.trans (h.foldl_of_mem honce ha))
    obtain ⟨a, ha⟩ := hex
    have hpresent := (hmem a ha).1
    exact ⟨iff_of_true hpresent ⟨a, ha⟩, fun b hb => (hmem b hb).2,
      fun habsent => absurd (habsent.symm.trans hpresent) Bool.false_ne_true⟩
  · obtain ⟨rfl, rfl⟩ := Prod.mk.inj
      (hget.symm.trans (h.foldl_of_forall_notMem (not_exists.1 hex)))
    exact ⟨iff_of_false Bool.false_ne_true hex, fun a ha => absurd ⟨a, ha⟩ hex, fun _ => rfl⟩

end

/-! ### The order of the keys -/

/-- Two entries of one kind, in a list that has at most one of that kind, are the same. -/
theorem eq_of_countP_le_one {p : AsmKey → Bool} {keys : List AsmKey} {x y : AsmKey}
    (honce : keys.countP p ≤ 1) (hx : x ∈ keys) (hy : y ∈ keys) (hpx : p x = true)
    (hpy : p y = true) : x = y := by
  have hx' : x ∈ keys.filter p := List.mem_filter.2 ⟨hx, hpx⟩
  have hy' : y ∈ keys.filter p := List.mem_filter.2 ⟨hy, hpy⟩
  rw [List.countP_eq_length_filter] at honce
  obtain ⟨z, hz⟩ := List.length_eq_one_iff.1 (honce.antisymm (List.length_pos_of_mem hx'))
  rw [hz, List.mem_singleton] at hx' hy'
  exact hx'.trans hy'.symm

/-- Two keys set their operands in either order alike, unless they are two keys of one kind. -/
theorem addKey_comm {x y : AsmKey} (htemp : x.isTemp = true → y.isTemp = true → x = y)
    (hmode : x.isMode = true → y.isMode = true → x = y)
    (hfan : x.isFan = true → y.isFan = true → x = y) (i : Instr) :
    addKey (addKey i x) y = addKey (addKey i y) x := by
  obtain ⟨temp, fan, mode, fPresent, mPresent, tPresent⟩ := i
  cases x with
  | temp n =>
    cases y with
    | temp n' => rw [htemp rfl rfl]
    | mode m => simp only [addKey_temp, addKey_mode]
    | fan f => simp only [addKey_temp, addKey_fan]
  | mode m =>
    cases y with
    | temp n => simp only [addKey_temp, addKey_mode]
    | mode m' => rw [hmode rfl rfl]
    | fan f => simp only [addKey_mode, addKey_fan]
  | fan f =>
    cases y with
    | temp n => simp only [addKey_temp, addKey_fan]
    | mode m => simp only [addKey_mode, addKey_fan]
    | fan f' => rw [hfan rfl rfl]

/-- The keys of a statement of the grammar set their operands in every order alike (R77). -/
theorem foldl_addKey_of_perm {keys keys' : List AsmKey} (hperm : keys.Perm keys')
    (hwf : (AsmLine.enc keys).wellFormed = true) (i : Instr) :
    keys.foldl addKey i = keys'.foldl addKey i := by
  obtain ⟨-, htemp, hmode, hfan⟩ := (AsmLine.wellFormed_enc_iff keys).1 hwf
  exact hperm.foldl_eq' (fun x hx y hy => addKey_comm (eq_of_countP_le_one htemp hx hy)
    (eq_of_countP_le_one hmode hx hy) (eq_of_countP_le_one hfan hx hy)) i

/-! ### The statements -/

/-- A statement of the grammar assembles to the word of the `ENC` that its keys make of the bare one
(R77). -/
theorem asmWord_enc_of_wellFormed {keys : List AsmKey}
    (hwf : (AsmLine.enc keys).wellFormed = true) :
    asmWord (.enc keys) = some (encode (keys.foldl addKey bareEnc)) := by
  simp only [asmWord, if_pos hwf]

/-- A statement outside the grammar does not assemble (R77). -/
theorem asmWord_of_not_wellFormed {line : AsmLine} (hwf : ¬ line.wellFormed = true) :
    asmWord line = none := by
  simp only [asmWord, if_neg hwf]

/-- Settles O19: each operand is what its key, written once or not at all, makes of it. -/
theorem assemblerEncodesKeys : Obligations.AssemblerEncodesKeys := by
  refine ⟨fun w => rfl, fun keys hwf => ?_⟩
  obtain ⟨hrange, htemp, hmode, hfan⟩ := (AsmLine.wellFormed_enc_iff keys).1 hwf
  cases hfold : keys.foldl addKey bareEnc with
  | enc temp fan mode fP mP tP =>
    obtain ⟨htP, htv, ht0⟩ := tempOperand_ofKey.foldl_spec (present := tP) (v := temp) htemp
      (congrArg Instr.tempOperand hfold)
    obtain ⟨hmP, hmv, hm0⟩ := modeOperand_ofKey.foldl_spec (present := mP) (v := mode) hmode
      (congrArg Instr.modeOperand hfold)
    obtain ⟨hfP, hfv, hf0⟩ := fanOperand_ofKey.foldl_spec (present := fP) (v := fan) hfan
      (congrArg Instr.fanOperand hfold)
    refine ⟨temp, fan, mode, fP, mP, tP, ?_, htP, hmP, hfP, fun n hn => ?_, hmv .cool, hmv .heat,
      fun r hr => ?_, hfv .auto, hfv .low, fun r hr => ?_, ht0, hm0, hf0⟩
    · rw [asmWord_enc_of_wellFormed hwf, hfold]
    · have hle : n ≤ 255 := of_decide_eq_true (hrange _ hn)
      rw [htv n hn, BitVec.toNat_ofNat, Nat.mod_eq_of_lt (by omega)]
    · have hle : r ≤ 3 := of_decide_eq_true (hrange _ hr)
      rw [hmv _ hr, AsmMode.bits, BitVec.toNat_ofNat, Nat.mod_eq_of_lt (by omega)]
    · have hle : r ≤ 3 := of_decide_eq_true (hrange _ hr)
      rw [hfv _ hr, AsmFan.bits, BitVec.toNat_ofNat, Nat.mod_eq_of_lt (by omega)]

/-- Settles O20: the grammar's checks and the keys' effects are both blind to the order. -/
theorem assemblerIgnoresKeyOrder : Obligations.AssemblerIgnoresKeyOrder := by
  intro keys keys' hperm
  have hwfeq := AsmLine.wellFormed_enc_of_perm hperm
  by_cases hwf : (AsmLine.enc keys).wellFormed = true
  · rw [asmWord_enc_of_wellFormed hwf, asmWord_enc_of_wellFormed (hwfeq.symm.trans hwf),
      foldl_addKey_of_perm hperm hwf]
  · rw [asmWord_of_not_wellFormed hwf, asmWord_of_not_wellFormed (hwfeq ▸ hwf)]

end Sys2Proof.Machine
end

section
/-!
Proofs about the outcome table (30_encoding.md R75, 60_exceptions.md R205): the outcome of every
command word by the bits of the word, and what a step on a command shows on the result ports.
-/

namespace Sys2Proof.Machine

/-! ### The operation as a table -/

/-- The checksum in the source's own form (R141). -/
theorem csum_eq_sub (v : Byte) : csum v = 0xFF - v := (BitVec.allOnes_sub_eq_not v).symm

/-- Packing two nibbles is writing one after the other (R143). -/
theorem pack_eq_append (t m : Nibble) : pack t m = t ++ m := by
  rw [pack, ← BitVec.setWidth_append_eq_shiftLeft_setWidth_or, BitVec.setWidth_eq]

/-- The frame that R75 and R106 give for the operands of an `ENC`, by conditions on the selectors in
place of the tables for fan and mode. -/
def encFrame (P : Config.Params) (temp : Byte) (fan mode : BitVec 2)
    (fPresent mPresent tPresent : Bool) : Frame :=
  let fanCode : Byte := if fPresent = true ∧ fan = 0b01 then 0xE0 else 0xA0
  let modeCode : Nibble := if mPresent = true ∧ mode = 0b01 then 0xC else 0x0
  let tempMode : Byte := resolveTemp P tPresent temp ++ modeCode
  ⟨0xB2, 0x4D, fanCode, 0xFF - fanCode, tempMode, 0xFF - tempMode⟩

/-- `resolve_fan` by its conditions (R125). -/
theorem resolveFan_eq_ite (fPresent : Bool) (fan : BitVec 2) :
    resolveFan fPresent fan =
      if fPresent = true ∧ (fan = 0b10 ∨ fan = 0b11) then .error ⟨.unsupportedValue, .fan⟩
      else .ok (if fPresent = true ∧ fan = 0b01 then 0xE0 else 0xA0) := by
  revert fPresent fan; decide

/-- `resolve_mode` by its conditions (R126). -/
theorem resolveMode_eq_ite (mPresent : Bool) (mode : BitVec 2) :
    resolveMode mPresent mode =
      if mPresent = true ∧ (mode = 0b10 ∨ mode = 0b11) then .error ⟨.unsupportedValue, .mode⟩
      else .ok (if mPresent = true ∧ mode = 0b01 then 0xC else 0x0) := by
  revert mPresent mode; decide

/-- The body of `ENC` as the last three rows of R75. -/
theorem encOutcome_eq_ite (P : Config.Params) (temp : Byte) (fan mode : BitVec 2)
    (fPresent mPresent tPresent : Bool) :
    encOutcome P temp fan mode fPresent mPresent tPresent =
      if fPresent = true ∧ (fan = 0b10 ∨ fan = 0b11) then .err ⟨.unsupportedValue, .fan⟩
      else if mPresent = true ∧ (mode = 0b10 ∨ mode = 0b11) then .err ⟨.unsupportedValue, .mode⟩
      else .ok (encFrame P temp fan mode fPresent mPresent tPresent)
        (render (encFrame P temp fan mode fPresent mPresent tPresent)) := by
  rw [encOutcome, resolveFan_eq_ite, resolveMode_eq_ite]
  by_cases hfan : fPresent = true ∧ (fan = 0b10 ∨ fan = 0b11)
  · simp only [if_pos hfan]
  by_cases hmode : mPresent = true ∧ (mode = 0b10 ∨ mode = 0b11)
  · simp only [if_neg hfan, if_pos hmode]
  · simp only [if_neg hfan, if_neg hmode, assembleFrame, csum_eq_sub, pack_eq_append]
    rfl

/-- A whole transaction as the table of R75, on the bits of the word. -/
theorem transact_eq_ite (P : Config.Params) (w : Word) :
    transact P w =
      if w.getLsbD 8 = false then .refused .noCommand
      else if w.extractLsb' 24 8 ≠ 0 then .refused .reservedBits
      else if w.extractLsb' 0 4 ≠ 0x1 then .err ⟨.unsupportedDevice, .target⟩
      else if w.extractLsb' 4 4 ≠ 0x1 then .err ⟨.unsupportedAction, .action⟩
      else encOutcome P (w.extractLsb' 16 8) (w.extractLsb' 14 2) (w.extractLsb' 12 2)
        (w.getLsbD 11) (w.getLsbD 10) (w.getLsbD 9) := by
  have hcases := decode_cases w
  simp only [Command.wellFormed_iff, Command.ofWord] at hcases
  obtain ⟨hcmd, hdec⟩ | ⟨hcmd, hrsvd, hdec⟩ | ⟨hcmd, hrsvd, htarget, hdec⟩ |
    ⟨hcmd, hrsvd, htarget, haction, hdec⟩ | ⟨⟨hcmd, hrsvd, htarget, haction⟩, hdec⟩ := hcases
  · rw [transact_of_decode_error P hdec, if_pos hcmd]
    rfl
  · rw [transact_of_decode_error P hdec, if_neg (ne_false_of_eq_true hcmd), if_pos hrsvd]
    rfl
  · rw [transact_of_decode_error P hdec, if_neg (ne_false_of_eq_true hcmd),
      if_neg (not_not.2 hrsvd), if_pos htarget]
    rfl
  · rw [transact_of_decode_error P hdec, if_neg (ne_false_of_eq_true hcmd),
      if_neg (not_not.2 hrsvd), if_neg (not_not.2 htarget), if_pos haction]
    rfl
  · rw [transact_of_decode_enc P hdec, if_neg (ne_false_of_eq_true hcmd),
      if_neg (not_not.2 hrsvd), if_neg (not_not.2 htarget), if_neg (not_not.2 haction)]

/-! ### Which words give a frame -/

/-- A supplied selector that is not reserved is one of the table's. -/
theorem selector_of_not_reserved {present : Bool} {v : BitVec 2}
    (h : ¬ (present = true ∧ (v = 0b10 ∨ v = 0b11))) : present = true → v = 0b00 ∨ v = 0b01 := by
  revert present v; decide

/-- An Ok outcome comes from a word that selects `ENC` and carries no present reserved value (the
last row of R75). -/
theorem valid_of_transact_ok {P : Config.Params} {w : Word} {b : Frame} {cs : Vector Char 12}
    (h : transact P w = .ok b cs) :
    w &&& 0xFF0001FF = 0x00000111 ∧
    (w.getLsbD 11 = true → w.extractLsb' 14 2 = 0b00 ∨ w.extractLsb' 14 2 = 0b01) ∧
    (w.getLsbD 10 = true → w.extractLsb' 12 2 = 0b00 ∨ w.extractLsb' 12 2 = 0b01) := by
  obtain ⟨r, -, hrej⟩ | ⟨hdec, henc⟩ := transact_cases P w
  · cases r <;> cases hrej.symm.trans h
  · rw [henc, encOutcome_eq_ite] at h
    split_ifs at h with hfan hmode
    exact ⟨mask_of_decode hdec, selector_of_not_reserved hfan, selector_of_not_reserved hmode⟩

/-! ### Absent parameters -/

/-- A function of a parameter that ignores its value bits where it is absent answers alike for
values that agree where it is present (R64). The three functions of the mapper are such (R125 to R128). -/
theorem operand_congr {α β : Type} (resolve : Bool → α → β)
    (habsent : ∀ v v' : α, resolve false v' = resolve false v) {present : Bool} {v v' : α}
    (h : present = true → v' = v) : resolve present v' = resolve present v := by
  cases present with
  | false => exact habsent v v'
  | true => rw [h rfl]

/-- Words that agree below bit `n` agree on every slice below it. -/
theorem extractLsb'_congr_of_getLsbD {w w' : Word} {n : Nat}
    (h : ∀ i, i < n → w'.getLsbD i = w.getLsbD i) {lo len : Nat} (hle : lo + len ≤ n) :
    w'.extractLsb' lo len = w.extractLsb' lo len := by
  apply BitVec.eq_of_getLsbD_eq
  intro i hi
  rw [BitVec.getLsbD_extractLsb', BitVec.getLsbD_extractLsb', h (lo + i) (by omega)]

/-! ### One step on a command -/

/-- A step whose next input is a command runs the word, put on CMD with the input taken. -/
theorem step_command_eq_runCmd {s : State} {w : Word} {rest : List Input}
    (hs : s.inputs = .command w :: rest) : step s = runCmd ((s.takeInput rest).drive w) := by
  simp only [step, fetch, hs]

/-- A word on CMD that decodes runs its instruction. -/
theorem runCmd_of_decode_ok {s : State} {i : Instr} (h : decode s.cmd = .ok i) :
    runCmd s = exec i s := by
  simp only [runCmd, h]

/-- A command whose outcome is an error leaves that error on the ports. -/
theorem step_command_of_err {s : State} {w : Word} {rest : List Input} {e : TxError}
    (hs : s.inputs = .command w :: rest) (herr : transact Config.params w = .err e) :
    step s = .next (((s.takeInput rest).drive w).raise e) := by
  rw [step_command hs, herr, complete_err]

/-- A command whose outcome is Ok leaves its frame and rendering on the ports. -/
theorem step_command_of_ok {s : State} {w : Word} {rest : List Input} {b : Frame}
    {cs : Vector Char 12} (hs : s.inputs = .command w :: rest)
    (hok : transact Config.params w = .ok b cs) :
    step s = .next (((s.takeInput rest).drive w).showOk b cs) := by
  rw [step_command hs, hok, complete_ok]

/-! ### The field code -/

/-- What reading `OUT_FIELD` answers where the port holds a code (R71). -/
theorem readPort_outField_of_some {s : State} {v : BitVec 3} (h : s.outField = some v) :
    readPort .outField s =
      if fieldNeverProduced v then .error .codeNeverProduced else .ok v := by
  simp only [readPort, readHeld, h]

/-- The codes that are never produced, one by one (R71). -/
theorem fieldNeverProduced_iff (v : BitVec 3) :
    fieldNeverProduced v = true ↔ v = 0b011 ∨ v = 0b110 ∨ v = 0b111 := by
  revert v; decide

/-- The codes of an error are produced, and are neither those of an Ok outcome (R70, R71). -/
theorem codes_of_errorPair {kind : BitVec 2} {field : BitVec 3}
    (h : errorPair kind field = true) :
    fieldNeverProduced field = false ∧ field ≠ noFieldCode ∧ kind ≠ okKindCode := by
  revert kind field; decide

/-- A transaction that completes shows a field code that is produced, and `000` exactly with the
kind code of Ok. -/
theorem complete_transact_outField {P : Config.Params} {w : Word} {s s' : State}
    (h : complete (transact P w) s = .next s') :
    ∃ v, s'.outField = some v ∧ fieldNeverProduced v = false ∧
      (v = noFieldCode ↔ s'.outKind = some okKindCode) := by
  obtain ⟨b, -, htx⟩ | ⟨e, hpair, htx⟩ | ⟨r, -, htx⟩ := transact_whole P w
  · rw [htx, complete_ok, Host.Outcome.next.injEq] at h
    subst h
    exact ⟨noFieldCode, rfl, rfl, iff_of_true rfl rfl⟩
  · rw [htx, complete_err, Host.Outcome.next.injEq] at h
    subst h
    obtain ⟨hproduced, hfield, hkind⟩ := codes_of_errorPair hpair
    exact ⟨e.field.code, rfl, hproduced, iff_of_false hfield fun hk => hkind (Option.some.inj hk)⟩
  · obtain ⟨reason, href⟩ := complete_refused r
    rw [htx, href] at h
    cases h

/-! ### The statements -/

/-- Settles O15: the mask is the four checks of R69, and a word that fails one of them has the
outcome of its row. -/
theorem decodeSelectsEncByMask : Obligations.DecodeSelectsEncByMask := by
  refine fun P w => ⟨fun hmask => decode_of_wellFormed ((mask_iff_wellFormed w).1 hmask),
    fun hmask => ⟨fun i hdec => hmask (mask_of_decode hdec), ?_⟩⟩
  rw [transact_eq_ite]
  split_ifs with hcmd hrsvd htarget haction
  case neg =>
    have hwf : (Command.ofWord w).wellFormed = true :=
      (Command.wellFormed_iff _).2 ⟨Bool.eq_true_of_not_eq_false hcmd, not_not.1 hrsvd,
        not_not.1 htarget, not_not.1 haction⟩
    exact absurd ((mask_iff_wellFormed w).2 hwf) hmask
  all_goals rfl

/-- Settles O24: the step completes the outcome of the table, row by row. -/
theorem commandFollowsOutcomeTable : Obligations.CommandFollowsOutcomeTable := by
  intro s w rest hs
  rw [step_command hs, transact_eq_ite, encOutcome_eq_ite]
  simp only [apply_ite fun o => complete o ((s.takeInput rest).drive w)]
  rfl

/-- Settles O38: the two words meet the same rows of the table, and the mapper reads a parameter
only where it is present. -/
theorem absentValueBitsIgnored : Obligations.AbsentValueBitsIgnored := by
  intro P w w' hlow hmode hfan htemp hrsvd
  have htarget : w'.extractLsb' 0 4 = w.extractLsb' 0 4 :=
    extractLsb'_congr_of_getLsbD hlow (by decide)
  have haction : w'.extractLsb' 4 4 = w.extractLsb' 4 4 :=
    extractLsb'_congr_of_getLsbD hlow (by decide)
  rw [transact_eq_ite, transact_eq_ite, hlow 8 (by decide), hlow 9 (by decide),
    hlow 10 (by decide), hlow 11 (by decide), htarget, haction, hrsvd, encOutcome,
    operand_congr resolveFan (fun _ _ => rfl) hfan,
    operand_congr resolveMode (fun _ _ => rfl) hmode,
    operand_congr (resolveTemp P) (fun _ _ => rfl) htemp]
  rfl

/-- Settles O43: of all that a step can do, only an Ok outcome puts a value on `FRAME`. -/
theorem onlyEncMakesFrames : Obligations.OnlyEncMakesFrames := by
  intro s s' v hstep hnew hold
  obtain ⟨-, rfl⟩ | ⟨w, rest, hinput, hdone⟩ | ⟨w, rest, -, rfl⟩ | ⟨rest, -, rfl⟩ |
    ⟨p, rest, u, -, -, rfl⟩ := step_cases hstep
  · exact absurd hnew hold
  · obtain ⟨b, cs, hok, -⟩ | ⟨e, -, rfl⟩ := complete_next hdone
    · exact ⟨w, rest, hinput, valid_of_transact_ok hok⟩
    · cases hnew
  · cases hnew
  · cases hnew
  · exact absurd hnew hold

/-- Settles O44: the codes by their definition, the code shown by the outcome, and the fault by the
read. -/
theorem outFieldCodes : Obligations.OutFieldCodes := by
  refine ⟨⟨rfl, rfl, rfl, rfl, rfl, rfl⟩, ?_, ?_⟩
  · intro s s' w rest hs hstep
    rw [step_command hs] at hstep
    obtain ⟨v, hv, hproduced, hkind⟩ := complete_transact_outField hstep
    obtain ⟨h011, h110, h111⟩ : v ≠ 0b011 ∧ v ≠ 0b110 ∧ v ≠ 0b111 := by
      simpa only [hproduced, Bool.false_eq_true, false_iff, not_or] using fieldNeverProduced_iff v
    refine ⟨v, hv, h011, h110, h111, hkind, ?_⟩
    rw [readPort_outField_of_some hv, hproduced]
    rfl
  · intro s v hv hreserved
    rw [readPort_outField_of_some hv, if_pos ((fieldNeverProduced_iff v).2 hreserved)]

/-- Settles O21: fetching drives the word, and running it decodes it. -/
theorem stepRunsDecodedInstruction : Obligations.StepRunsDecodedInstruction := by
  intro s w rest i hs hdec _
  rw [step_command_eq_runCmd hs]
  exact runCmd_of_decode_ok hdec

/-- Settles O31: the next state shows the outcome, under its kind's code. -/
theorem outKindShowsOutcome : Obligations.OutKindShowsOutcome := by
  intro s w rest hs
  exact ⟨fun b cs hok => ⟨_, step_command_of_ok hs hok, rfl, rfl, rfl⟩,
    fun field herr => ⟨_, step_command_of_err hs herr, rfl⟩,
    fun field herr => ⟨_, step_command_of_err hs herr, rfl⟩,
    fun field herr => ⟨_, step_command_of_err hs herr, rfl⟩⟩

end Sys2Proof.Machine
end

section
/-!
Proofs about the frame encoder (40_encode.md): the digits of a rendering and how they read back,
what `ENC` leaves on the ports, and the frame of every Ok outcome.
-/

namespace Sys2Proof.Machine

/-! ### The digits of a rendering -/

/-- `hexdigit` by the list of the sixteen digits (R108). -/
theorem getElem?_digits_hexdigit (n : Nibble) :
    ['0', '1', '2', '3', '4', '5', '6', '7', '8', '9', 'A', 'B', 'C', 'D', 'E', 'F'][n.toNat]? =
      some (hexdigit n) := by
  revert n; decide

/-- The code of a digit by the formula of R108 (log entry 16). -/
theorem charCode_hexdigit (n : Nibble) : charCode (hexdigit n) =
    if n.toNat ≤ 9 then 0x30 + n.setWidth 8 else 0x41 + (n.setWidth 8 - 10) := by
  revert n; decide

/-- The sixteen digits are distinct, so that each stands for one nibble. -/
@[simp] theorem hexValue_hexdigit (n : Nibble) : hexValue (hexdigit n) = some n := by
  revert n; decide

/-- A byte is its two nibbles, the more significant first (R42). -/
@[simp] theorem hiNibble_append_loNibble (v : Byte) : hiNibble v ++ loNibble v = v :=
  BitVec.extractLsb'_append_extractLsb'

/-- The two digits of a byte spell it. -/
@[simp] theorem hexByte_hexdigit (v : Byte) :
    hexByte (hexdigit (hiNibble v)) (hexdigit (loNibble v)) = some v := by
  simp only [hexByte, hexValue_hexdigit, hiNibble_append_loNibble]

/-- A rendering reads back to its frame, byte by byte (R109 (b)). -/
@[simp] theorem unrender_render (b : Frame) : unrender (render b) = some b := by
  simp [unrender, render]

/-- Characters 2k and 2k+1 are the two digits of byte[k] (R107). -/
theorem getElem?_render_byte (b : Frame) (k : Fin 6) :
    (render b)[2 * k.val]? = some (hexdigit (hiNibble (b.byte k))) ∧
    (render b)[2 * k.val + 1]? = some (hexdigit (loNibble (b.byte k))) := by
  fin_cases k <;> exact ⟨rfl, rfl⟩

/-- Every character of a rendering is one of the sixteen digits (R108, R109 (c)). -/
theorem mem_digits_of_mem_render {b : Frame} {ch : Char} (h : ch ∈ (render b).toList) :
    ch ∈ ['0', '1', '2', '3', '4', '5', '6', '7', '8', '9', 'A', 'B', 'C', 'D', 'E', 'F'] := by
  obtain ⟨i, hi, hch⟩ := Vector.mem_iff_getElem.1 (Vector.mem_toList_iff.1 h)
  have hdigit := getElem?_render_framePort b ⟨i, hi⟩
  rw [Vector.getElem?_eq_getElem hi, hch, Option.some.injEq] at hdigit
  exact hdigit ▸ List.mem_of_getElem? (getElem?_digits_hexdigit _)

/-! ### The header -/

/-- A legal frame begins `B2 4D` (R103). -/
theorem header_of_legal {b : Frame} (h : b.legal = true) :
    b.headerHi = 0xB2 ∧ b.headerLo = 0x4D := by
  simp only [Frame.legal, Bool.and_eq_true, beq_iff_eq] at h
  obtain ⟨⟨⟨hheader, -⟩, -⟩, -⟩ := h
  exact hheader

/-- The check bytes of a legal frame are right (R142). -/
theorem checks_of_legal {b : Frame} (h : b.legal = true) :
    b.fanCheck = 0xFF - b.fanCode ∧ b.tempModeCheck = 0xFF - b.tempMode := by
  simp only [Frame.legal, Frame.accepted, Bool.and_eq_true, beq_iff_eq] at h
  obtain ⟨⟨⟨-, hchecks⟩, -⟩, -⟩ := h
  exact hchecks

/-- The rendering of a legal frame begins `B24D` (R103). -/
theorem render_take_four_of_legal {b : Frame} (h : b.legal = true) :
    (render b).toList.take 4 = ['B', '2', '4', 'D'] := by
  obtain ⟨hhi, hlo⟩ := header_of_legal h
  simp only [render, hhi, hlo]
  rfl

/-- The top 16 bits of the `FRAME` port are the first two bytes (R43). -/
theorem extractLsb'_framePort_header (b : Frame) :
    (framePort b).extractLsb' 32 16 = b.headerHi ++ b.headerLo := by
  simp [framePort, BitVec.extractLsb'_append_eq_of_le (w := 8), BitVec.extractLsb'_eq_self]

/-- The top 32 bits of the `HEX` port are the first four characters (R44). -/
theorem extractLsb'_hexPort_header (cs : Vector Char 12) :
    (hexPort cs).extractLsb' 64 32 =
      charCode cs[0] ++ charCode cs[1] ++ charCode cs[2] ++ charCode cs[3] := by
  simp [hexPort, BitVec.extractLsb'_append_eq_of_le (w := 8), BitVec.extractLsb'_eq_self]

/-- The `FRAME` port begins with the header where it shows a legal frame (R103). -/
theorem framePort_header_of_legal {b : Frame} (h : b.legal = true) :
    (framePort b).extractLsb' 32 16 = 0xB24D := by
  obtain ⟨hhi, hlo⟩ := header_of_legal h
  rw [extractLsb'_framePort_header, hhi, hlo]
  rfl

/-- The `HEX` port begins with the header's digits where it shows a legal frame (R103). -/
theorem hexPort_header_of_legal {b : Frame} (h : b.legal = true) :
    (hexPort (render b)).extractLsb' 64 32 = 0x42323444 := by
  obtain ⟨hhi, hlo⟩ := header_of_legal h
  calc (hexPort (render b)).extractLsb' 64 32
      = charCode (hexdigit (hiNibble b.headerHi)) ++ charCode (hexdigit (loNibble b.headerHi)) ++
          charCode (hexdigit (hiNibble b.headerLo)) ++ charCode (hexdigit (loNibble b.headerLo)) :=
        extractLsb'_hexPort_header (render b)
    _ = 0x42323444 := by rw [hhi, hlo]; decide

/-! ### The meaning of `ENC` -/

/-- Executing `ENC` completes the outcome of its body (R100). -/
theorem exec_enc (temp : Byte) (fan mode : BitVec 2) (fPresent mPresent tPresent : Bool)
    (s : State) : exec (.enc temp fan mode fPresent mPresent tPresent) s =
      complete (encOutcome Config.params temp fan mode fPresent mPresent tPresent) s := rfl

/-- A supplied selector of the table is not reserved. -/
theorem not_reserved_of_selector {present : Bool} {v : BitVec 2}
    (h : present = true → v = 0b00 ∨ v = 0b01) : ¬ (present = true ∧ (v = 0b10 ∨ v = 0b11)) := by
  revert present v; decide

/-- With no present reserved selector the body of `ENC` gives its frame, rendered (R102). -/
theorem encOutcome_of_selectors (P : Config.Params) (temp : Byte) {fan mode : BitVec 2}
    {fPresent mPresent : Bool} (tPresent : Bool)
    (hfan : fPresent = true → fan = 0b00 ∨ fan = 0b01)
    (hmode : mPresent = true → mode = 0b00 ∨ mode = 0b01) :
    encOutcome P temp fan mode fPresent mPresent tPresent =
      .ok (encFrame P temp fan mode fPresent mPresent tPresent)
        (render (encFrame P temp fan mode fPresent mPresent tPresent)) := by
  rw [encOutcome_eq_ite, if_neg (not_reserved_of_selector hfan),
    if_neg (not_reserved_of_selector hmode)]

/-- A present reserved fan is the error of the body of `ENC`, whatever the mode is (R203, R205). -/
theorem encOutcome_of_reserved_fan (P : Config.Params) (temp : Byte) {fan : BitVec 2}
    (mode : BitVec 2) {fPresent : Bool} (mPresent tPresent : Bool)
    (hfan : fPresent = true ∧ (fan = 0b10 ∨ fan = 0b11)) :
    encOutcome P temp fan mode fPresent mPresent tPresent = .err ⟨.unsupportedValue, .fan⟩ := by
  rw [encOutcome_eq_ite, if_pos hfan]

/-- A present reserved mode is the error of the body of `ENC` where the fan is none (R203, R205). -/
theorem encOutcome_of_reserved_mode (P : Config.Params) (temp : Byte) {fan mode : BitVec 2}
    {fPresent mPresent : Bool} (tPresent : Bool)
    (hfan : fPresent = true → fan = 0b00 ∨ fan = 0b01)
    (hmode : mPresent = true ∧ (mode = 0b10 ∨ mode = 0b11)) :
    encOutcome P temp fan mode fPresent mPresent tPresent = .err ⟨.unsupportedValue, .mode⟩ := by
  rw [encOutcome_eq_ite, if_neg (not_reserved_of_selector hfan), if_pos hmode]

/-! ### The frame of an Ok outcome -/

/-- The frame that the fields of a word give (R106). -/
def wordFrame (P : Config.Params) (w : Word) : Frame :=
  encFrame P (w.extractLsb' 16 8) (w.extractLsb' 14 2) (w.extractLsb' 12 2) (w.getLsbD 11)
    (w.getLsbD 10) (w.getLsbD 9)

/-- A word that selects `ENC` and carries no present reserved value gives its frame, rendered
(R102). -/
theorem transact_of_valid {w : Word} (P : Config.Params) (hmask : w &&& 0xFF0001FF = 0x00000111)
    (hfan : w.getLsbD 11 = true → w.extractLsb' 14 2 = 0b00 ∨ w.extractLsb' 14 2 = 0b01)
    (hmode : w.getLsbD 10 = true → w.extractLsb' 12 2 = 0b00 ∨ w.extractLsb' 12 2 = 0b01) :
    transact P w = .ok (wordFrame P w) (render (wordFrame P w)) :=
  (transact_of_decode_enc P (decode_of_wellFormed ((mask_iff_wellFormed w).1 hmask))).trans
    (encOutcome_of_selectors P _ _ hfan hmode)

/-- An Ok outcome is the frame that the word's fields give, and its rendering. -/
theorem eq_wordFrame_of_transact_ok {P : Config.Params} {w : Word} {b : Frame}
    {cs : Vector Char 12} (h : transact P w = .ok b cs) :
    b = wordFrame P w ∧ cs = render b := by
  obtain ⟨hmask, hfan, hmode⟩ := valid_of_transact_ok h
  obtain ⟨rfl, rfl⟩ := TxOutcome.ok.inj ((transact_of_valid P hmask hfan hmode).symm.trans h)
  exact ⟨rfl, rfl⟩

/-- An Ok outcome is a legal frame and its rendering. -/
theorem legal_of_transact_ok {P : Config.Params} {w : Word} {b : Frame} {cs : Vector Char 12}
    (h : transact P w = .ok b cs) : b.legal = true ∧ cs = render b := by
  obtain ⟨b', hlegal, htx⟩ | ⟨e, -, htx⟩ | ⟨r, -, htx⟩ := transact_whole P w
  · obtain ⟨rfl, rfl⟩ := TxOutcome.ok.inj (htx.symm.trans h)
    exact ⟨hlegal, rfl⟩
  · cases htx.symm.trans h
  · cases htx.symm.trans h

/-- The fan pair is `E0 1F` for a supplied Low and `A0 5F` otherwise (R104). -/
theorem encFrame_fanPair (P : Config.Params) (temp : Byte) (fan mode : BitVec 2)
    (fPresent mPresent tPresent : Bool) :
    let b := encFrame P temp fan mode fPresent mPresent tPresent
    if fPresent = true ∧ fan = 0b01 then b.fanCode = 0xE0 ∧ b.fanCheck = 0x1F
      else b.fanCode = 0xA0 ∧ b.fanCheck = 0x5F := by
  simp only [encFrame]
  split_ifs
  · exact ⟨rfl, rfl⟩
  · exact ⟨rfl, rfl⟩

/-- The low nibble of byte[4] is the mode code (R105). -/
theorem encFrame_tempMode_lo (P : Config.Params) (temp : Byte) (fan mode : BitVec 2)
    (fPresent mPresent tPresent : Bool) :
    (encFrame P temp fan mode fPresent mPresent tPresent).tempMode.extractLsb' 0 4 =
      (if mPresent = true ∧ mode = 0b01 then 0xC else 0x0) :=
  BitVec.extractLsb'_append_eq_right

/-- The high nibble of byte[4] is the temperature code (R105). -/
theorem encFrame_tempMode_hi (P : Config.Params) (temp : Byte) (fan mode : BitVec 2)
    (fPresent mPresent tPresent : Bool) :
    (encFrame P temp fan mode fPresent mPresent tPresent).tempMode.extractLsb' 4 4 =
      resolveTemp P tPresent temp :=
  BitVec.extractLsb'_append_eq_left

/-! ### What a transaction shows -/

/-- A transaction that completes shows a legal frame with its own rendering, or raises an error
under one of the pairs of R201 to R203 (R101). -/
theorem complete_transact_cases {P : Config.Params} {w : Word} {s s' : State}
    (h : complete (transact P w) s = .next s') :
    (∃ b, b.legal = true ∧ s' = s.showOk b (render b)) ∨
    (∃ e, errorPair e.kind.code e.field.code = true ∧ s' = s.raise e) := by
  obtain ⟨b, hlegal, htx⟩ | ⟨e, hpair, htx⟩ | ⟨r, -, htx⟩ := transact_whole P w
  · rw [htx, complete_ok, Host.Outcome.next.injEq] at h
    exact .inl ⟨b, hlegal, h.symm⟩
  · rw [htx, complete_err, Host.Outcome.next.injEq] at h
    exact .inr ⟨e, hpair, h.symm⟩
  · obtain ⟨reason, href⟩ := complete_refused r
    rw [htx, href] at h
    cases h

/-! ### The statements -/

/-- Settles O5: each byte is spelled by its two digits. -/
theorem renderReadsBack : Obligations.RenderReadsBack := unrender_render

/-- Settles O22: the outcome is Ok with the frame of the operands, which the ports then show. -/
theorem encCompletesWithFrame : Obligations.EncCompletesWithFrame := by
  intro temp fan mode fP mP tP s hfan hmode
  rw [exec_enc, encOutcome_of_selectors _ temp tP hfan hmode, complete_ok]
  rfl

/-- Settles O23: the error is the fan's, or the mode's where the fan is not reserved. -/
theorem encRaisesOnReservedValue : Obligations.EncRaisesOnReservedValue := by
  intro temp fan mode fP mP tP s
  refine ⟨fun hfP hfan => ?_, fun hfan hmP hmode => ?_⟩
  · rw [exec_enc, encOutcome_of_reserved_fan _ temp mode mP tP ⟨hfP, hfan⟩, complete_err]
    rfl
  · rw [exec_enc, encOutcome_of_reserved_mode _ temp tP hfan ⟨hmP, hmode⟩, complete_err]
    rfl

/-- Settles O32: the next state shows the one or the other. -/
theorem transactionAllOrNothing : Obligations.TransactionAllOrNothing := by
  intro s s' w rest hs hstep
  rw [step_command hs] at hstep
  obtain ⟨b, hlegal, rfl⟩ | ⟨e, hpair, rfl⟩ := complete_transact_cases hstep
  · exact .inl ⟨b, hlegal, rfl, rfl, rfl, rfl⟩
  · exact .inr ⟨e.kind.code, e.field.code, hpair, rfl, rfl, rfl, rfl⟩

/-- Settles O33: the frame of an Ok outcome is legal, and no error shows the kind code of Ok. -/
theorem everyFrameStartsWithHeader : Obligations.EveryFrameStartsWithHeader := by
  refine ⟨fun P w b cs hok => ?_, fun s s' w rest hs hstep hkind => ?_⟩
  · obtain ⟨hlegal, rfl⟩ := legal_of_transact_ok hok
    obtain ⟨hhi, hlo⟩ := header_of_legal hlegal
    exact ⟨hhi, hlo, render_take_four_of_legal hlegal⟩
  · rw [step_command hs] at hstep
    obtain ⟨b, hlegal, rfl⟩ | ⟨e, hpair, rfl⟩ := complete_transact_cases hstep
    · exact ⟨_, _, rfl, rfl, framePort_header_of_legal hlegal, hexPort_header_of_legal hlegal⟩
    · obtain ⟨-, -, hne⟩ := codes_of_errorPair hpair
      exact absurd (Option.some.inj hkind) hne

/-- Settles O35: the rendering is that of a legal frame, made of digits, and reads back to it. -/
theorem renderingPassesSourceProperties : Obligations.RenderingPassesSourceProperties := by
  intro P w b cs hok
  obtain ⟨hlegal, rfl⟩ := legal_of_transact_ok hok
  obtain ⟨hfan, htemp⟩ := checks_of_legal hlegal
  exact ⟨Vector.length_toList, fun ch hch => mem_digits_of_mem_render hch,
    render_take_four_of_legal hlegal, b, unrender_render b, rfl, hfan, htemp⟩

/-- Settles O36: the frame is the one that the word's fields give. -/
theorem frameBytesFollowTables : Obligations.FrameBytesFollowTables := by
  intro P w b cs hok
  obtain ⟨rfl, -⟩ := eq_wordFrame_of_transact_ok hok
  exact ⟨encFrame_fanPair P _ _ _ _ _ _, encFrame_tempMode_lo P _ _ _ _ _ _,
    encFrame_tempMode_hi P _ _ _ _ _ _⟩

/-- Settles O37: such words give their frame, and an Ok outcome comes from no other. -/
theorem okExactlyForValidWords : Obligations.OkExactlyForValidWords :=
  fun P _ => ⟨fun ⟨_, _, hok⟩ => valid_of_transact_ok hok,
    fun ⟨hmask, hfan, hmode⟩ => ⟨_, _, transact_of_valid P hmask hfan hmode⟩⟩

/-- Settles O3: the table and the formula agree on all sixteen nibbles. -/
theorem hexdigitIsTableEntry : Obligations.HexdigitIsTableEntry :=
  ⟨getElem?_digits_hexdigit, charCode_hexdigit, rfl⟩

/-- Settles O4: the digits by their places, one case per byte. -/
theorem renderWritesTwoDigitsPerByte : Obligations.RenderWritesTwoDigitsPerByte :=
  ⟨fun b k => ⟨Vector.length_toList, getElem?_render_byte b k⟩, rfl⟩

end Sys2Proof.Machine
end

section
/-!
Proofs about the lookup mapper (41_lookup_mapper.md R121 to R128): what the three resolution functions
answer, which errors the body of `ENC` raises, and that each field of its frame defaults on its own.
-/

namespace Sys2Proof.Machine

/-! ### The temperature table -/

/-- The temperatures of the table do not depend on the instance (R123, R124). -/
theorem map_fst_tempTable (P : Config.Params) : (tempTable P).map Prod.fst =
    [16, 17, 18, 19, 20, 21, 22, 23, 24, 25, 26, 27, 28, 29, 30] := rfl

/-- Every temperature of the table lies between 16 and 30 degrees (R123, R124). -/
theorem toNat_of_mem_tempTable {P : Config.Params} {entry : Byte × Nibble}
    (h : entry ∈ tempTable P) : 16 ≤ entry.1.toNat ∧ entry.1.toNat ≤ 30 := by
  have hrange : ∀ t ∈ (tempTable P).map Prod.fst, 16 ≤ t.toNat ∧ t.toNat ≤ 30 := by
    rw [map_fst_tempTable]
    decide
  exact hrange entry.1 (List.mem_map_of_mem h)

/-- A temperature below 16 or above 30 degrees has no entry (R127). -/
theorem lookup_tempTable_of_outside (P : Config.Params) {temp : Byte}
    (h : temp.toNat < 16 ∨ 30 < temp.toNat) : (tempTable P).lookup temp = none := by
  refine List.lookup_eq_none_iff.2 fun entry hentry => bne_iff_ne.2 ?_
  rintro rfl
  have hrange := toNat_of_mem_tempTable hentry
  omega

/-- A supplied temperature without an entry gives the code of the unrecognized ones (R127). -/
theorem resolveTemp_of_lookup_eq_none {P : Config.Params} {temp : Byte}
    (h : (tempTable P).lookup temp = none) : resolveTemp P true temp = P.tempUnrecognized := by
  simp [resolveTemp, h]

/-! ### The outcomes of `ENC` by its operands -/

/-- The errors of the body of `ENC`, in the order of R205, and their conditions: neither the
instance nor the temperature is in them (R127). -/
theorem encOutcome_eq_err_iff (P : Config.Params) (temp : Byte) (fan mode : BitVec 2)
    (fPresent mPresent tPresent : Bool) (e : TxError) :
    encOutcome P temp fan mode fPresent mPresent tPresent = .err e ↔
      ((fPresent = true ∧ (fan = 0b10 ∨ fan = 0b11)) ∧ e = ⟨.unsupportedValue, .fan⟩) ∨
      (¬ (fPresent = true ∧ (fan = 0b10 ∨ fan = 0b11)) ∧
        (mPresent = true ∧ (mode = 0b10 ∨ mode = 0b11)) ∧ e = ⟨.unsupportedValue, .mode⟩) := by
  rw [encOutcome_eq_ite]
  split_ifs with hfan hmode
  · simp only [hfan, TxOutcome.err.injEq, eq_comm, true_and, not_true, false_and, or_false]
  · simp only [hfan, hmode, TxOutcome.err.injEq, eq_comm, true_and, not_false_iff, false_and,
      false_or]
  · simp only [hfan, hmode, false_and, and_false, or_self]

/-- The frame of an Ok outcome of the body of `ENC` is the one that its operands give (R106). -/
theorem eq_encFrame_of_encOutcome_ok {P : Config.Params} {temp : Byte} {fan mode : BitVec 2}
    {fPresent mPresent tPresent : Bool} {b : Frame} {cs : Vector Char 12}
    (h : encOutcome P temp fan mode fPresent mPresent tPresent = .ok b cs) :
    b = encFrame P temp fan mode fPresent mPresent tPresent := by
  rw [encOutcome_eq_ite] at h
  split_ifs at h
  exact (TxOutcome.ok.inj h).1.symm

/-- The fan code of the frame reads only the fan's operands (R128). -/
theorem encFrame_fanCode (P : Config.Params) (temp : Byte) (fan mode : BitVec 2)
    (fPresent mPresent tPresent : Bool) :
    (encFrame P temp fan mode fPresent mPresent tPresent).fanCode =
      (if fPresent = true ∧ fan = 0b01 then 0xE0 else 0xA0) := rfl

/-- Byte[4] of the frame reads only the operands of the temperature and the mode (R128). -/
theorem encFrame_tempMode (P : Config.Params) (temp : Byte) (fan mode : BitVec 2)
    (fPresent mPresent tPresent : Bool) :
    (encFrame P temp fan mode fPresent mPresent tPresent).tempMode =
      resolveTemp P tPresent temp ++
        (if mPresent = true ∧ mode = 0b01 then 0xC else 0x0 : Nibble) := rfl

/-! ### The statements -/

/-- Settles O11: both frames are those of their operands, and each of their codes reads the operands
of its own parameter only. -/
theorem defaultsAreIndependent : Obligations.DefaultsAreIndependent := by
  intro P temp temp' fan fan' mode mode' fP fP' mP mP' tP tP' b b' cs cs' hok
  obtain rfl := eq_encFrame_of_encOutcome_ok hok
  refine ⟨fun hok' => ?temp, fun hok' => ?mode, fun hok' => ?fan, fun hfP hmP => ?absent⟩
  case temp =>
    obtain rfl := eq_encFrame_of_encOutcome_ok hok'
    exact ⟨by rw [encFrame_fanCode, encFrame_fanCode],
      by rw [encFrame_tempMode_lo, encFrame_tempMode_lo]⟩
  case mode =>
    obtain rfl := eq_encFrame_of_encOutcome_ok hok'
    exact ⟨by rw [encFrame_fanCode, encFrame_fanCode],
      by rw [encFrame_tempMode_hi, encFrame_tempMode_hi]⟩
  case fan =>
    obtain rfl := eq_encFrame_of_encOutcome_ok hok'
    rw [encFrame_tempMode, encFrame_tempMode]
  case absent =>
    rw [encFrame_fanCode, encFrame_tempMode_lo, hfP, hmP]
    exact ⟨rfl, rfl⟩

/-- Settles O8: the absent fan whatever its bits, then the four supplied ones. -/
theorem resolveFanLooksUpOrDefaults : Obligations.ResolveFanLooksUpOrDefaults :=
  ⟨fun _ => rfl, rfl, rfl, rfl, rfl⟩

/-- Settles O9: the absent mode whatever its bits, then the four supplied ones. -/
theorem resolveModeLooksUpOrDefaults : Obligations.ResolveModeLooksUpOrDefaults :=
  ⟨fun _ => rfl, rfl, rfl, rfl, rfl⟩

/-- Settles O10: the fifteen entries are looked up one by one, and no other temperature has one. -/
theorem resolveTempLooksUpOrDefaults : Obligations.ResolveTempLooksUpOrDefaults :=
  fun P => ⟨fun _ => rfl, rfl, rfl, rfl, rfl, rfl, rfl, rfl, rfl, rfl, rfl, rfl, rfl, rfl, rfl, rfl,
    fun _ houtside => resolveTemp_of_lookup_eq_none (lookup_tempTable_of_outside P houtside)⟩

/-- Settles O12: the conditions of an error are those of the fan and the mode. -/
theorem temperatureNeverDecidesAnError : Obligations.TemperatureNeverDecidesAnError := by
  intro P P' temp temp' fan mode fP mP tP tP' e herr
  have hcond := (encOutcome_eq_err_iff P temp fan mode fP mP tP e).1 herr
  refine ⟨(encOutcome_eq_err_iff P' temp' fan mode fP mP tP' e).2 hcond, ?_⟩
  obtain ⟨-, rfl⟩ | ⟨-, -, rfl⟩ := hcond
  · exact ⟨rfl, nofun⟩
  · exact ⟨rfl, nofun⟩

end Sys2Proof.Machine
end

section
/-!
Proofs about the checksum generator and the nibble packer (42_checksum.md): the forms of `csum`, the
check invariant of every frame, and where `pack` places its two nibbles.
-/

namespace Sys2Proof.Machine

/-! ### The checksum -/

/-- Bit i of the checksum is the complement of bit i of the byte (R141). -/
theorem getLsbD_csum (v : Byte) (i : Fin 8) : (csum v).getLsbD i = !v.getLsbD i := by
  rw [csum, BitVec.getLsbD_not, decide_eq_true i.isLt, Bool.true_and]

/-- The checksum as an exclusive or (R141). -/
theorem csum_eq_xor (v : Byte) : csum v = v ^^^ 0xFF := BitVec.xor_allOnes.symm

/-- The checksum is its own inverse (R141). -/
@[simp] theorem csum_csum (v : Byte) : csum (csum v) = v := BitVec.not_not

/-- No byte is its own checksum: bit 0 differs (R141). -/
theorem csum_ne_self (v : Byte) : csum v ≠ v := (BitVec.ne_not_self (by decide)).symm

/-- A byte and its checksum differ in every bit (R142). -/
@[simp] theorem xor_csum (v : Byte) : v ^^^ csum v = 0xFF := by
  rw [csum_eq_xor, ← BitVec.xor_assoc, BitVec.xor_self, BitVec.zero_xor]

/-- A check byte that passes the receiver's test, which is a subtraction, satisfies the invariant,
which is an exclusive or (R142). -/
theorem xor_check_of_eq_sub {v check : Byte} (h : check = 0xFF - v) : v ^^^ check = 0xFF := by
  rw [h, ← csum_eq_sub, xor_csum]

/-! ### The nibble packer -/

/-- Bits 7..4 of a packed byte are the temperature code (R143). -/
@[simp] theorem extractLsb'_pack_hi (t m : Nibble) : (pack t m).extractLsb' 4 4 = t := by
  rw [pack_eq_append, BitVec.extractLsb'_append_eq_left]

/-- Bits 3..0 of a packed byte are the mode code (R143). -/
@[simp] theorem extractLsb'_pack_lo (t m : Nibble) : (pack t m).extractLsb' 0 4 = m := by
  rw [pack_eq_append, BitVec.extractLsb'_append_eq_right]

/-- The packer is injective: both nibbles are read off the byte (R143). -/
theorem pack_inj {t m t' m' : Nibble} (h : pack t m = pack t' m') : t = t' ∧ m = m' := by
  have hhi := congrArg (BitVec.extractLsb' 4 4) h
  have hlo := congrArg (BitVec.extractLsb' 0 4) h
  rw [extractLsb'_pack_hi, extractLsb'_pack_hi] at hhi
  rw [extractLsb'_pack_lo, extractLsb'_pack_lo] at hlo
  exact ⟨hhi, hlo⟩

/-! ### The statements -/

/-- Settles O34: every frame of an Ok outcome is legal, so it passes the receiver's test, and the
test is the invariant in another form. -/
theorem everyFramePassesCheck : Obligations.EveryFramePassesCheck := by
  refine ⟨xor_csum, fun P w b cs hok => ?_⟩
  obtain ⟨hlegal, -⟩ := legal_of_transact_ok hok
  obtain ⟨hfan, htemp⟩ := checks_of_legal hlegal
  exact ⟨xor_check_of_eq_sub hfan, xor_check_of_eq_sub htemp, hfan, htemp⟩

/-- Settles O1: the bits and the forms of the checksum, then its corner cases and the example. -/
theorem csumIsOnesComplement : Obligations.CsumIsOnesComplement :=
  fun v => ⟨getLsbD_csum v, csum_eq_sub v, csum_eq_xor v, csum_csum v, csum_ne_self v, rfl, rfl, rfl⟩

/-- Settles O2: the places of the nibbles, then the corner cases and the example. -/
theorem packPlacesNibbles : Obligations.PackPlacesNibbles :=
  fun t m => ⟨extractLsb'_pack_hi t m, extractLsb'_pack_lo t m, rfl, pack_eq_append t m,
    fun _ _ => pack_inj, rfl, rfl, rfl⟩

end Sys2Proof.Machine
end

section
/-!
Proofs about the errors and the refusals (60_exceptions.md R201 to R207): which words raise each
error, which are refused, what an error leaves on the result ports, and that a retry changes
nothing.
-/

namespace Sys2Proof.Machine

/-! ### Words outside the contract and out of scope -/

/-- A word with `HAS_CMD` = 0 is refused (the first row of R75). -/
theorem transact_of_noCommand {w : Word} (P : Config.Params) (hcmd : w.getLsbD 8 = false) :
    transact P w = .refused .noCommand := by
  rw [transact_eq_ite, if_pos hcmd]

/-- A command with a reserved bit set is refused (the second row of R75). -/
theorem transact_of_reservedBits {w : Word} (P : Config.Params) (hcmd : w.getLsbD 8 = true)
    (hrsvd : w.extractLsb' 24 8 ≠ 0) : transact P w = .refused .reservedBits := by
  rw [transact_eq_ite, if_neg (ne_false_of_eq_true hcmd), if_pos hrsvd]

/-- Another `TARGET` than 1 is an error, whatever the fields after it are (the third row of R75). -/
theorem transact_of_unsupported_target {w : Word} (P : Config.Params)
    (hcmd : w.getLsbD 8 = true) (hrsvd : w.extractLsb' 24 8 = 0)
    (htarget : w.extractLsb' 0 4 ≠ 0x1) :
    transact P w = .err ⟨.unsupportedDevice, .target⟩ := by
  rw [transact_eq_ite, if_neg (ne_false_of_eq_true hcmd), if_neg (not_not.2 hrsvd),
    if_pos htarget]

/-- Another `ACTION` than 1 is an error, whatever the parameters are (the fourth row of R75). -/
theorem transact_of_unsupported_action {w : Word} (P : Config.Params)
    (hcmd : w.getLsbD 8 = true) (hrsvd : w.extractLsb' 24 8 = 0)
    (htarget : w.extractLsb' 0 4 = 0x1) (haction : w.extractLsb' 4 4 ≠ 0x1) :
    transact P w = .err ⟨.unsupportedAction, .action⟩ := by
  rw [transact_eq_ite, if_neg (ne_false_of_eq_true hcmd), if_neg (not_not.2 hrsvd),
    if_neg (not_not.2 htarget), if_pos haction]

/-- A word that the mask of R69 selects has the outcome of the body of `ENC` on its bits. -/
theorem transact_of_mask {w : Word} (P : Config.Params) (hmask : w &&& 0xFF0001FF = 0x00000111) :
    transact P w = encOutcome P (w.extractLsb' 16 8) (w.extractLsb' 14 2) (w.extractLsb' 12 2)
      (w.getLsbD 11) (w.getLsbD 10) (w.getLsbD 9) :=
  transact_of_decode_enc P (decode_of_wellFormed ((mask_iff_wellFormed w).1 hmask))

/-! ### Reading a port after an error -/

/-- A `FRAME` port without a value faults when it is read, as after every error (R204). -/
theorem readPort_frame_of_none {s : State} (h : s.frame = none) :
    readPort .frame s = .error (.noValue .frame) := by
  simp only [readPort, readHeld, h]

/-- A `HEX` port without a value faults when it is read, as after every error (R204). -/
theorem readPort_hex_of_none {s : State} (h : s.hex = none) :
    readPort .hex s = .error (.noValue .hex) := by
  simp only [readPort, readHeld, h]

/-! ### Presenting a word again -/

/-- Driving the word that CMD carries already changes nothing. -/
theorem State.drive_of_cmd_eq {s : State} {w : Word} (h : s.cmd = w) : s.drive w = s := by
  subst h
  rfl

/-- Completing a transaction leaves CMD to the caller (R27). -/
theorem complete_next_cmd {o : TxOutcome} {s s' : State} (h : complete o s = .next s') :
    s'.cmd = s.cmd := by
  obtain ⟨b, cs, -, rfl⟩ | ⟨e, -, rfl⟩ := complete_next h
  · exact State.showOk_cmd s b cs
  · exact State.raise_cmd s e

/-- Completing a transaction leaves the inputs to come. -/
theorem complete_next_inputs {o : TxOutcome} {s s' : State} (h : complete o s = .next s') :
    s'.inputs = s.inputs := by
  obtain ⟨b, cs, -, rfl⟩ | ⟨e, -, rfl⟩ := complete_next h
  · exact State.showOk_inputs s b cs
  · exact State.raise_inputs s e

/-- An outcome that the ports show already changes nothing when it completes again, whatever inputs
were taken in between (R29). -/
theorem complete_takeInput_of_complete_next {o : TxOutcome} {s s' : State}
    (h : complete o s = .next s') (rest : List Input) :
    complete o (s'.takeInput rest) = .next (s'.takeInput rest) := by
  obtain ⟨b, cs, rfl, rfl⟩ | ⟨e, rfl, rfl⟩ := complete_next h
  · rfl
  · rfl

/-! ### The statements -/

/-- Settles O27: the three outcomes of the body of `ENC` on the word's bits: the fan's error, the
mode's where the fan is not reserved, and Ok with neither. -/
theorem unsupportedValueRaised : Obligations.UnsupportedValueRaised := by
  intro s w rest hs hmask
  refine ⟨fun hpresent hvalue => ?fan, fun hfan hpresent hvalue => ?mode, fun hfan hmode => ?ok⟩
  case fan =>
    exact step_command_of_err hs ((transact_of_mask _ hmask).trans
      (encOutcome_of_reserved_fan _ _ _ _ _ ⟨hpresent, hvalue⟩))
  case mode =>
    exact step_command_of_err hs ((transact_of_mask _ hmask).trans
      (encOutcome_of_reserved_mode _ _ _ (selector_of_not_reserved hfan) ⟨hpresent, hvalue⟩))
  case ok =>
    exact ⟨_, step_command_of_ok hs (transact_of_valid _ hmask (selector_of_not_reserved hfan)
      (selector_of_not_reserved hmode)), rfl⟩

/-- Settles O40: after the first transaction the word is on CMD and its outcome on the ports, and
the second completes the same outcome there. -/
theorem retryChangesNothing : Obligations.RetryChangesNothing := by
  intro s s' w rest hs hstep
  rw [step_command hs] at hstep
  have hcmd : (s'.takeInput rest).cmd = w := complete_next_cmd hstep
  rw [step_command (complete_next_inputs hstep), State.drive_of_cmd_eq hcmd]
  exact complete_takeInput_of_complete_next hstep rest

/-- Settles O25: the step leaves the error of the third row of R75 on the ports. -/
theorem unsupportedDeviceRaised : Obligations.UnsupportedDeviceRaised :=
  fun _ _ _ hs hcmd hrsvd htarget =>
    step_command_of_err hs (transact_of_unsupported_target _ hcmd hrsvd htarget)

/-- Settles O26: the step leaves the error of the fourth row of R75 on the ports. -/
theorem unsupportedActionRaised : Obligations.UnsupportedActionRaised :=
  fun _ _ _ hs hcmd hrsvd htarget haction =>
    step_command_of_err hs (transact_of_unsupported_action _ hcmd hrsvd htarget haction)

/-- Settles O28: a refused outcome completes with its refusal, and the first two rows of R75 are the
refused ones. -/
theorem wordsOutsideContractRefused : Obligations.WordsOutsideContractRefused := by
  intro s w rest hs
  rw [step_command hs]
  refine ⟨fun hcmd => ?_, fun hcmd hrsvd => ?_⟩
  · rw [transact_of_noCommand _ hcmd]
    rfl
  · rw [transact_of_reservedBits _ hcmd hrsvd]
    rfl

/-- Settles O29: raising the error empties `FRAME` and `HEX`, and a read as the next input is the
fault of `readPort`. -/
theorem errorCarriesNoFrame : Obligations.ErrorCarriesNoFrame := by
  intro s w rest e hs herr
  have hframe := readPort_frame_of_none (State.raise_frame ((s.takeInput rest).drive w) e)
  have hhex := readPort_hex_of_none (State.raise_hex ((s.takeInput rest).drive w) e)
  exact ⟨_, step_command_of_err hs herr, rfl, rfl, rfl, rfl, hframe, hhex,
    fun rest' hrest => (readHasNoEffect _ .frame rest' hrest).2 _ hframe,
    fun rest' hrest => (readHasNoEffect _ .hex rest' hrest).2 _ hhex⟩

end Sys2Proof.Machine
end

section
/-!
Proofs about reset and hazards (70_reset_and_hazards.md R250 to R255): what a reset leaves, that a
kept contract is never stopped, which outcomes the instance decides, and a word that changes during
its transaction.
-/

namespace Sys2Proof.Machine

/-! ### Runs of a kept contract -/

/-- All that is still to come are commands within the caller's contract (R253). -/
def State.onlyKeptCommands (s : State) : Prop :=
  ∃ ws : List Word, s.inputs = ws.map .command ∧ ∀ w ∈ ws, contractKept w = true

/-- A state that keeps the contract has a next state, which keeps it: the next word's transaction
completes, and with no word left the block idles (R206; log entry 8). -/
theorem step_keeps_onlyKeptCommands {s : State} (h : s.onlyKeptCommands) :
    ∃ s', step s = .next s' ∧ s'.onlyKeptCommands := by
  obtain ⟨ws, hs, hkept⟩ := h
  cases ws with
  | nil => exact ⟨s, idleChangesNothing s hs, [], hs, hkept⟩
  | cons w ws =>
    obtain ⟨hw, hws⟩ := List.forall_mem_cons.1 hkept
    obtain ⟨s', hstep, hs'⟩ := step_command_next_of_contractKept hs hw
    exact ⟨s', hstep, ws, hs', hws⟩

/-- From a state of an invariant under which every step has a next state that keeps it, a run of any
length is safe. -/
theorem runsSafely_of_invariant {Inv : State → Prop}
    (hInv : ∀ s, Inv s → ∃ s', step s = .next s' ∧ Inv s') (k : Nat) {s : State} (hs : Inv s) :
    RunsSafely k s := by
  induction k generalizing s with
  | zero => exact ⟨s, rfl⟩
  | succ k ih =>
    obtain ⟨s', hstep, hs'⟩ := hInv s hs
    obtain ⟨t, hrun⟩ := ih hs'
    exact ⟨t, (run_succ_of_next hstep).trans hrun⟩

/-! ### What the instance decides -/

/-- The instance enters an outcome only through the code of the word's temperature (R125 to
R127). -/
theorem transact_congr_of_resolveTemp {P P' : Config.Params} {w : Word}
    (h : resolveTemp P (w.getLsbD 9) (w.extractLsb' 16 8) =
      resolveTemp P' (w.getLsbD 9) (w.extractLsb' 16 8)) : transact P w = transact P' w := by
  simp only [transact_eq_ite, encOutcome, h]

/-- The codes of 18, 21 and 26 degrees are the same on every instance (R123). -/
theorem resolveTemp_of_listed (P P' : Config.Params) {temp : Byte}
    (h : temp = 18 ∨ temp = 21 ∨ temp = 26) :
    resolveTemp P true temp = resolveTemp P' true temp := by
  obtain rfl | rfl | rfl := h
  · rfl
  · rfl
  · rfl

/-- A word that gives no frame on one instance has the same error or refusal on every other: neither
reads the temperature (R252). -/
theorem transact_eq_of_ne_ok {P : Config.Params} {w : Word} (P' : Config.Params)
    (h : ∀ b cs, transact P w ≠ .ok b cs) : transact P' w = transact P w := by
  obtain ⟨r, hdec, hrej⟩ | ⟨hdec, henc⟩ := transact_cases P w
  · rw [hrej, transact_of_decode_error P' hdec]
  · rw [henc] at h ⊢
    rw [transact_of_decode_enc P' hdec]
    obtain ⟨b, -, hok⟩ | ⟨e, -, herr⟩ := encOutcome_whole P (Command.ofWord w).temp
      (Command.ofWord w).fan (Command.ofWord w).mode (Command.ofWord w).fPresent
      (Command.ofWord w).mPresent (Command.ofWord w).tPresent
    · exact absurd hok (h b (render b))
    · rw [herr]
      exact (temperatureNeverDecidesAnError P P' _ _ _ _ _ _ _ _ e herr).1

/-! ### Resets and the ports that hold nothing -/

/-- No result port holds a value (R251). -/
def State.noResults (s : State) : Prop :=
  s.outKind = none ∧ s.outField = none ∧ s.frame = none ∧ s.hex = none

theorem State.noResults_reset : State.reset.noResults := portsWholeAtReset.2

theorem State.noResults_clearResults (s : State) : s.clearResults.noResults :=
  ⟨rfl, rfl, rfl, rfl⟩

/-- Taking an input puts no value on a result port. -/
theorem State.noResults_takeInput {s : State} (h : s.noResults) (rest : List Input) :
    (s.takeInput rest).noResults := h

/-- Reading any port without a value faults (R251). -/
theorem readPort_of_noResults {s : State} (h : s.noResults) (p : ResultPort) :
    readPort p s = .error (.noValue p) := by
  obtain ⟨hkind, hfield, hframe, hhex⟩ := h
  cases p with
  | outKind => simp only [readPort, readHeld, hkind]
  | outField => simp only [readPort, readHeld, hfield]
  | frame => exact readPort_frame_of_none hframe
  | hex => exact readPort_hex_of_none hhex

/-- A reset takes its input and empties the result ports (R251; log entry 7). -/
theorem step_reset {s : State} {rest : List Input} (hs : s.inputs = .reset :: rest) :
    step s = .next (s.takeInput rest).clearResults := by
  simp only [step, fetch, hs]

/-- A reset during a transaction leaves its word on CMD and empties the result ports (R250; log
entry 7). -/
theorem step_commandReset {s : State} {w : Word} {rest : List Input}
    (hs : s.inputs = .commandReset w :: rest) :
    step s = .next ((s.takeInput rest).drive w).clearResults := by
  simp only [step, fetch, hs]

/-- Only a transaction puts a value on a result port that holds none (R251). -/
theorem step_keeps_noResults {s s' : State} (h : s.noResults) (hstep : step s = .next s')
    (hcommand : ∀ w rest, s.inputs ≠ .command w :: rest)
    (hchanged : ∀ w rest, s.inputs ≠ .commandChanged w w :: rest) : s'.noResults := by
  obtain ⟨-, rfl⟩ | ⟨w, rest, hs | hs, -⟩ | ⟨w, rest, -, rfl⟩ | ⟨rest, -, rfl⟩ |
    ⟨p, rest, v, -, -, rfl⟩ := step_cases hstep
  · exact h
  · exact absurd hs (hcommand w rest)
  · exact absurd hs (hchanged w rest)
  · exact State.noResults_clearResults _
  · exact State.noResults_clearResults _
  · exact State.noResults_takeInput h rest

/-! ### A word that changes -/

/-- A word that becomes another before its outcome faults (R254; log entry 6). -/
theorem step_commandChanged_of_ne {s : State} {first later : Word} {rest : List Input}
    (hs : s.inputs = .commandChanged first later :: rest) (hne : first ≠ later) :
    step s = .fault .cmdChanged := by
  simp only [step, fetch, hs, if_neg hne]

/-- A word that stays the same runs as a plain command does (R254; log entry 6). -/
theorem step_commandChanged_self {s : State} {w : Word} {rest : List Input}
    (hs : s.inputs = .commandChanged w w :: rest) :
    step s = runCmd ((s.takeInput rest).drive w) := by
  simp only [step, fetch, hs, if_true]

/-! ### The statements -/

/-- Settles O42: that only commands of a kept contract are to come is an invariant, and under it
every step has a next state. -/
theorem keptContractRunsSafely : Obligations.KeptContractRunsSafely :=
  fun ws _ hs hkept k =>
    runsSafely_of_invariant (fun _ => step_keeps_onlyKeptCommands) k ⟨ws, hs, hkept⟩

/-- Settles O45: the code of a listed temperature is no parameter of the instance, and errors and
refusals do not read the temperature. -/
theorem listedTemperaturesDetermined : Obligations.ListedTemperaturesDetermined := by
  refine fun P P' w => ⟨fun hpresent hlisted => transact_congr_of_resolveTemp ?_,
    transact_eq_of_ne_ok P'⟩
  rw [hpresent]
  exact resolveTemp_of_listed P P' hlisted

/-- Settles O48: the reads at reset, the two kinds of reset, and the steps from ports that hold
nothing. -/
theorem resetLeavesNoResult : Obligations.ResetLeavesNoResult := by
  refine ⟨readPort_of_noResults State.noResults_reset, fun s rest => step_reset,
    fun s w rest => step_commandReset, fun s hkind hfield hframe hhex => ?_⟩
  have hnone : s.noResults := ⟨hkind, hfield, hframe, hhex⟩
  exact ⟨fun p rest hs => (readHasNoEffect s p rest hs).2 _ (readPort_of_noResults hnone p),
    fun s' => step_keeps_noResults hnone⟩

/-- Settles O46: the code of a temperature is looked up without reading the latency. -/
theorem latencyNeverRead : Obligations.LatencyNeverRead :=
  fun _ _ _ => transact_congr_of_resolveTemp rfl

/-- Settles O50: a word that differs faults, and one that stays the same is fetched as the plain
command is. -/
theorem changingCommandFaults : Obligations.ChangingCommandFaults := by
  intro s first later rest hs
  refine ⟨step_commandChanged_of_ne hs, ?_⟩
  rintro rfl
  have hplain : step { s with inputs := .command first :: rest } =
      runCmd ((s.takeInput rest).drive first) :=
    step_command_eq_runCmd (s := { s with inputs := .command first :: rest }) rfl
  exact (step_commandChanged_self hs).trans hplain.symm

end Sys2Proof.Machine
end

section
/-!
Proofs about the test vectors (95_test_vectors.md): what the words written there decode to, and the
frames of the twelve fully specified ones on every instance.
-/

namespace Sys2Proof

/-! ### Words that are not `ENC` -/

/-- The checks of a command that each rejection stands for, in the order of R205: the one that fails
and all before it, which pass (the first four rows of R75). -/
def Command.rejectedAs (c : Command) : Reject → Prop
  | .noCommand => c.hasCmd = false
  | .reservedBits => c.hasCmd = true ∧ c.rsvd ≠ 0
  | .unsupportedDevice => c.hasCmd = true ∧ c.rsvd = 0 ∧ c.target ≠ 0x1
  | .unsupportedAction => c.hasCmd = true ∧ c.rsvd = 0 ∧ c.target = 0x1 ∧ c.action ≠ 0x1

/-- The decoder rejects a word by the first check of R75 that its fields fail. -/
theorem decode_eq_error_of_rejectedAs {w : Word} {r : Reject}
    (h : (Command.ofWord w).rejectedAs r) : decode w = .error r := by
  cases r with
  | noCommand => exact if_pos h
  | reservedBits =>
    obtain ⟨hcmd, hrsvd⟩ := h
    exact (if_neg (ne_false_of_eq_true hcmd)).trans (if_pos hrsvd)
  | unsupportedDevice =>
    obtain ⟨hcmd, hrsvd, htarget⟩ := h
    exact (if_neg (ne_false_of_eq_true hcmd)).trans ((if_neg (not_not.2 hrsvd)).trans
      (if_pos htarget))
  | unsupportedAction =>
    obtain ⟨hcmd, hrsvd, htarget, haction⟩ := h
    exact (if_neg (ne_false_of_eq_true hcmd)).trans ((if_neg (not_not.2 hrsvd)).trans
      ((if_neg (not_not.2 htarget)).trans (if_pos haction)))

end Sys2Proof

namespace Sys2Proof.Machine

/-! ### Fully specified words -/

/-- A word whose frame the source fixes: it selects `ENC` (R69), its fan and its mode are of the tables
(R121, R122), and its temperature is one whose code the source gives (R123, R252). -/
def fullySpecified (w : Word) : Bool :=
  w &&& 0xFF0001FF == 0x00000111 &&
  (w.extractLsb' 14 2 == 0b00 || w.extractLsb' 14 2 == 0b01) &&
  (w.extractLsb' 12 2 == 0b00 || w.extractLsb' 12 2 == 0b01) &&
  (w.extractLsb' 16 8 == 18 || w.extractLsb' 16 8 == 21 || w.extractLsb' 16 8 == 26) &&
  w.getLsbD 9

/-- A fully specified word gives one frame on every instance (R252). -/
theorem transact_of_fullySpecified {w : Word} (P P' : Config.Params)
    (h : fullySpecified w = true) :
    transact P w = .ok (wordFrame P' w) (render (wordFrame P' w)) := by
  simp only [fullySpecified, Bool.and_eq_true, Bool.or_eq_true, beq_iff_eq, or_assoc] at h
  obtain ⟨⟨⟨⟨hmask, hfan⟩, hmode⟩, htemp⟩, hpresent⟩ := h
  calc transact P w
      = transact P' w := (listedTemperaturesDetermined P P' w).1 hpresent htemp
    _ = .ok (wordFrame P' w) (render (wordFrame P' w)) :=
        transact_of_valid P' hmask (fun _ => hfan) (fun _ => hmode)

/-- A row of section 2.5: a fully specified word and, as the `FRAME` port spells it, the frame of its
fields. Any instance serves for `default`: the frame of a fully specified word is the same on all. -/
def specRow (x : Word × BitVec 48) : Bool :=
  fullySpecified x.1 && framePort (wordFrame default x.1) == x.2

/-- The word of a row gives the frame of the row on every instance. -/
theorem transact_of_specRow {x : Word × BitVec 48} (P : Config.Params) (h : specRow x = true) :
    ∃ b, transact P x.1 = .ok b (render b) ∧ framePort b = x.2 := by
  rw [specRow, Bool.and_eq_true, beq_iff_eq] at h
  obtain ⟨hspec, hframe⟩ := h
  exact ⟨wordFrame default x.1, transact_of_fullySpecified P default hspec, hframe⟩

/-! ### The statements -/

/-- Settles O18: the fields of the `ENC` words are the commands of their operands, and each other word
fails the check that its rejection names. -/
theorem decodeReadsSpecWords : Obligations.DecodeReadsSpecWords := by
  have hok : ∀ {w : Word} {i : Instr}, Command.ofWord w = i.command → decode w = .ok i :=
    fun {w i} => (decode_eq_ok_iff w i).2
  exact ⟨hok rfl, hok rfl, hok rfl, hok rfl, hok rfl, hok rfl,
    decode_eq_error_of_rejectedAs rfl,
    decode_eq_error_of_rejectedAs ⟨rfl, by decide⟩,
    decode_eq_error_of_rejectedAs ⟨rfl, rfl, by decide⟩,
    decode_eq_error_of_rejectedAs ⟨rfl, rfl, rfl, by decide⟩⟩

/-- Settles O47: each of the twelve words is fully specified, and its fields give the frame of the
table, by evaluation row by row. -/
theorem specWordsGiveSpecFrames : Obligations.SpecWordsGiveSpecFrames :=
  fun P x hx => transact_of_specRow P (List.all_eq_true.1 rfl x hx)

end Sys2Proof.Machine
end
